-- ==== Sys2Proof/Word.lean ====
section
/-!
DEFINITION. The byte, the eight-byte panel transfer unit, and fixed-length tables of three, four and eight
entries (ranks, detectors, and slots or stations). They are plain structures, so that a state can be compared,
printed and evaluated by the kernel, and so that a table can never have the wrong number of entries.
-/

namespace Sys2Proof

/-- One byte, as sent on any of the part's ports (spec 11, opening paragraph). -/
abbrev Byte := BitVec 8

/-- Eight bytes: one panel message or one panel record (R182). -/
structure Octets where
  b0 : Byte
  b1 : Byte
  b2 : Byte
  b3 : Byte
  b4 : Byte
  b5 : Byte
  b6 : Byte
  b7 : Byte
  deriving DecidableEq, Repr

/-- A table of three entries: one per harmony rank, entry 0 standing for rank 1 (spec 00, Numbering). -/
structure Three (α : Type) where
  e0 : α
  e1 : α
  e2 : α
  deriving DecidableEq, Repr

/-- A table of four entries: one per gesture detector, or one per octave key (spec 00, Numbering). -/
structure Four (α : Type) where
  e0 : α
  e1 : α
  e2 : α
  e3 : α
  deriving DecidableEq, Repr

/-- A table of eight entries: one per voice slot, or one per station number (spec 00, Numbering). -/
structure Eight (α : Type) where
  e0 : α
  e1 : α
  e2 : α
  e3 : α
  e4 : α
  e5 : α
  e6 : α
  e7 : α
  deriving DecidableEq, Repr

variable {α : Type}

/-- Entry `i` of a table of three. -/
def Three.get (v : Three α) (i : Fin 3) : α :=
  match i.val with
  | 0 => v.e0
  | 1 => v.e1
  | _ => v.e2

/-- The table of three with entry `i` replaced. -/
def Three.set (v : Three α) (i : Fin 3) (x : α) : Three α :=
  match i.val with
  | 0 => { v with e0 := x }
  | 1 => { v with e1 := x }
  | _ => { v with e2 := x }

/-- Every entry of a table of three passed through `f`. -/
def Three.map (f : α → α) (v : Three α) : Three α := ⟨f v.e0, f v.e1, f v.e2⟩

/-- Entry `i` of a table of four. -/
def Four.get (v : Four α) (i : Fin 4) : α :=
  match i.val with
  | 0 => v.e0
  | 1 => v.e1
  | 2 => v.e2
  | _ => v.e3

/-- The table of four with entry `i` replaced. -/
def Four.set (v : Four α) (i : Fin 4) (x : α) : Four α :=
  match i.val with
  | 0 => { v with e0 := x }
  | 1 => { v with e1 := x }
  | 2 => { v with e2 := x }
  | _ => { v with e3 := x }

/-- Entry `i` of a table of eight. -/
def Eight.get (v : Eight α) (i : Fin 8) : α :=
  match i.val with
  | 0 => v.e0
  | 1 => v.e1
  | 2 => v.e2
  | 3 => v.e3
  | 4 => v.e4
  | 5 => v.e5
  | 6 => v.e6
  | _ => v.e7

/-- The table of eight with entry `i` replaced. -/
def Eight.set (v : Eight α) (i : Fin 8) (x : α) : Eight α :=
  match i.val with
  | 0 => { v with e0 := x }
  | 1 => { v with e1 := x }
  | 2 => { v with e2 := x }
  | 3 => { v with e3 := x }
  | 4 => { v with e4 := x }
  | 5 => { v with e5 := x }
  | 6 => { v with e6 := x }
  | _ => { v with e7 := x }

/-- The entries of a table of eight, in order. -/
def Eight.toList (v : Eight α) : List α := [v.e0, v.e1, v.e2, v.e3, v.e4, v.e5, v.e6, v.e7]

/-- Every entry of a table of eight passed through `f`, which may give a different type. -/
def Eight.map {β : Type} (f : α → β) (v : Eight α) : Eight β :=
  ⟨f v.e0, f v.e1, f v.e2, f v.e3, f v.e4, f v.e5, f v.e6, f v.e7⟩

/-- The three rank indices in rank order (R98, R100: ranks act in rank order 1, 2, 3). -/
def allRanks : List (Fin 3) := [0, 1, 2]

/-- The four detector numbers in order (R44). -/
def allDetectors : List (Fin 4) := [0, 1, 2, 3]

/-- The eight slot numbers, or the eight station numbers, in order (R59, R122). -/
def allEight : List (Fin 8) := [0, 1, 2, 3, 4, 5, 6, 7]

end Sys2Proof
end

