-- ==== Sys2Proof/Syntax.lean ====
section
/-!
DEFINITION. The commands of the part: one constructor per row of spec/opcode_table.json. A command is one whole,
indivisible step (spec 95): something that arrives at a port, or a step of the part itself whose order among
other steps the sender of the commands chooses. The panel message rows carry no operand, since the message they
process stands at the head of the in FIFO (R183; DESIGN CHOICE, assumption 19). Bit-times and clock edges have no row (assumption
16).
-/

namespace Sys2Proof

/-- One command of the KB-208. -/
inductive Instr where
  /-- POWER_ON_RESET: RESETn low or the power-up detector (R175). -/
  | powerOnReset
  /-- RESET_RELEASE with the strap pins STN2..STN0 as they stand (R175). -/
  | resetRelease (straps : BitVec 3)
  /-- IMAGE_LOAD_FAULT: the image load ends in FAULT on this flash (R177). -/
  | imageLoadFault (flash : List Byte)
  /-- IMAGE_LOAD_COMPLETE: the image load ends LOADED from this flash (R178). -/
  | imageLoadComplete (flash : List Byte)
  /-- PROGRAM_READ_COMPLETE: the program block read in flight finishes on this flash (R180). -/
  | programReadComplete (flash : List Byte)
  /-- SENSOR_FRAME: one burst of bytes within one frame strobe (R18, R193). -/
  | sensorFrame (burst : List Byte)
  /-- BASELINE_CAPTURE_COMPLETE: the sixteenth capture frame fixes Z (R24). -/
  | baselineCaptureComplete
  /-- ONSET_END: the onset counter has reached F (R31, R32). -/
  | onsetEnd
  /-- SENSOR_LOST: the missing-frame timer has reached 8 (R20). -/
  | sensorLost
  /-- DETECTOR_FIRE: the lowest-numbered detector whose hit count has reached N fires (R43, R44). -/
  | detectorFire
  /-- AUDIO_BLOCK_BOUNDARY: the 1 ms boundary (R64, R65, R75). -/
  | audioBlockBoundary
  /-- ROOT_SETTLED: the root settle count has reached 16 (R81). -/
  | rootSettled
  /-- TRANSPOSE_TAKEN: the waiting transpose is taken (R11). -/
  | transposeTaken
  /-- TUNING_TAKEN: the waiting tuning is taken (R88). -/
  | tuningTaken
  /-- KEY_TAKEN: the waiting key and scale set are taken (R185). -/
  | keyTaken
  /-- RANKS_TAKEN: the waiting RANKS set is taken (R98). -/
  | ranksTaken
  /-- STALE_CLAIM: the queued age of this rank has reached 10 (R105). -/
  | staleClaim (r : Fin 3)
  /-- CLAIM_CONFIRM: the window age of this rank has reached 4 (R107). -/
  | claimConfirm (r : Fin 3)
  /-- LOCAL_RESOLUTION of this LOCAL_PENDING rank (R108). -/
  | localResolution (r : Fin 3)
  /-- STATION_EXPIRY: the age of this peer has reached 200 (R122). -/
  | stationExpiry (st : Fin 8)
  /-- JOINING_COMPLETE: the joining timer has reached 200 (R137). -/
  | joiningComplete
  /-- DECAY_TIMER_EXPIRY: the decay timer has reached 8 (R139). -/
  | decayTimerExpiry
  /-- LISTEN_ONLY_END: the error counter has decayed to 0 (R139). -/
  | listenOnlyEnd
  /-- ROSTER_TIMER_EXPIRY: the ROSTER timer has reached 64 (R149). -/
  | rosterTimerExpiry
  /-- SAMPLE: one sample period of the audio clock (R159). -/
  | sample
  /-- TRANSMIT_START: the start bit of a frame in which this station takes part (R152). -/
  | transmitStart
  /-- ARBITRATION_LOST to the frame with this header (R153). -/
  | arbitrationLost (winner : Byte)
  /-- BIT_ERROR in the own frame (R154). -/
  | bitError
  /-- OWN_FRAME_COMPLETE (R155). -/
  | ownFrameComplete
  /-- LINE_FRAME_BROKEN: the bits read after the start bit of a frame that broke off (R142, R194). -/
  | lineFrameBroken (bits : List Bool)
  /-- FRAME_DISCARDED: the bytes of a received frame that is not good (R143, R195). -/
  | frameDiscarded (frame : List Byte)
  /-- DUPLICATE_FRAME: a good frame bearing the own station number (R132). -/
  | duplicateFrame (frame : List Byte)
  /-- PEER_NOTE_START (R125). -/
  | peerNoteStart (frame : List Byte)
  /-- PEER_NOTE_END (R126). -/
  | peerNoteEnd (frame : List Byte)
  /-- PEER_ROSTER (R127). -/
  | peerRoster (frame : List Byte)
  /-- PEER_CLAIM (R111, R115). -/
  | peerClaim (frame : List Byte)
  /-- PEER_HELD (R110). -/
  | peerHeld (frame : List Byte)
  /-- PANEL_TRANSFER: eight bytes moved in (and a record moved out) (R182). -/
  | panelTransfer (message : Octets)
  /-- PANEL_TRANSFER_ABORTED: chip select released before the eighth byte (R182). -/
  | panelTransferAborted
  /-- PROGRAM at the head of the in FIFO is processed (R69). -/
  | program
  /-- TRANSPOSE at the head of the in FIFO is processed (R185). -/
  | transpose
  /-- TUNING at the head of the in FIFO is processed (R185). -/
  | tuning
  /-- KEY at the head of the in FIFO is processed (R185). -/
  | key
  /-- RANKS at the head of the in FIFO is processed (R185). -/
  | ranks
  /-- ALL_OFF at the head of the in FIFO is processed (R62). -/
  | allOff
  /-- STATUS at the head of the in FIFO is processed (R187). -/
  | status
  /-- SECTION at the head of the in FIFO is processed (R188). -/
  | sectionRequest
  /-- ACK at the head of the in FIFO is processed (R190). -/
  | ack
  /-- RELOAD at the head of the in FIFO is processed (R181). -/
  | reload
  /-- A message of unknown kind code at the head of the in FIFO is processed (R186). -/
  | badMessage
  /-- SECTION_ENTRY_PLACED: the running section report places its next record (R188). -/
  | sectionEntryPlaced
  /-- DEFAULT_PROGRAM_READ_START: the loader begins to read the default program block (R178). -/
  | defaultProgramReadStart (flash : List Byte)
  deriving DecidableEq, Repr

end Sys2Proof
end

