-- ==== Sys2Proof/Decode.lean ====
section
/-!
DEFINITION. The command that a word spells by the opcode table's bits. The part has no instruction words: no row of
spec/opcode_table.json gives any bits, so no word spells a command. What does arrive as bytes (sensor bursts, line frames,
panel messages, the image) is read in Machine/Operands.lean, LineFormat.lean, PanelFormat.lean and ImageFormat.lean.
-/

namespace Sys2Proof

/-- The command spelled by a word of `nbits` bits: none, since no row of the table gives bits. -/
def decodeTableWord (_nbits _w : Nat) : Option Instr := none

end Sys2Proof
end

