-- ==== Sys2Proof/Config.lean ====
section
/-!
DEFINITION. The fixed numbers of the part, each from the rule named beside it. The manual leaves no result of a
step open (INVENTORY.md, What the manual leaves open), so there is no uninterpreted constant here.
-/

namespace Sys2Proof.Config

/-- Samples in one audio block (R159). -/
def samplesPerBlock : Nat := 48
/-- Missing-frame timer value that declares a loss (R20). -/
def lossBlocks : Nat := 8
/-- Frames of a baseline capture (R24). -/
def captureFrames : Nat := 16
/-- Greatest baseline (R25). -/
def baselineMax : Nat := 1023
/-- Settle count that adopts a new root (R81). -/
def rootSettle : Nat := 16
/-- Queued age of a stale claim (R105). -/
def staleAge : Nat := 10
/-- Window age that confirms a claim (R107). -/
def windowAge : Nat := 4
/-- Age at which a peer becomes absent (R122). -/
def expiryAge : Nat := 200
/-- Joining timer value that makes the line ACTIVE (R137). -/
def joiningBlocks : Nat := 200
/-- Decay timer value that lowers the error counter (R139). -/
def decayBlocks : Nat := 8
/-- ROSTER timer value that admits a ROSTER (R149). -/
def rosterBlocks : Nat := 64
/-- Records in the transmit queue, at most (R145). -/
def queueLimit : Nat := 16
/-- Error counter value that takes the station off the line (R154, R156). -/
def errorLimit : Nat := 96
/-- Rise of the error counter at a bit error (R154). -/
def errorRise : Nat := 8
/-- Greatest error counter (R154). -/
def errorMax : Nat := 255
/-- Abandonments after which a record is dropped (R154). -/
def abandonLimit : Nat := 3
/-- Messages in the in FIFO, and records in the out FIFO, at most (R183, R184). -/
def fifoLimit : Nat := 8
/-- Greatest value of a 16-bit counter (R192). -/
def counterMax : Nat := 65535
/-- Greatest gain or level (spec 00, Values). -/
def fullGain : Nat := 32767
/-- Notes a refused list holds, at most (R109). -/
def refusedLimit : Nat := 3

end Sys2Proof.Config
end

