-- ==== Sys2Proof/Machine/Bits.lean ====
section
/-!
DEFINITION. Byte order, sign extension, clamping, the stated divisions and the CRC-16 (spec 11, R196).
-/

namespace Sys2Proof.Machine

/-- Byte `i` of a list; a byte beyond its end reads as 255, as an undriven flash does (R176). The flash is an operand of the
commands that read it (DESIGN CHOICE, assumption 4). -/
def byteAt (bytes : List Byte) (i : Nat) : Byte := bytes.getD i 255

/-- `len` bytes from `start`, a byte beyond the end reading as 255 (R176). -/
def bytesFrom (bytes : List Byte) (start len : Nat) : List Byte :=
  let here := (bytes.drop start).take len
  here ++ List.replicate (len - here.length) 255

/-- An unsigned value of bytes sent most significant first (spec 11, opening paragraph). -/
def bigEndian (bytes : List Byte) : Nat := bytes.foldl (fun acc b => acc * 256 + b.toNat) 0

/-- An unsigned two-byte field. -/
def word16 (hi lo : Byte) : Nat := hi.toNat * 256 + lo.toNat

/-- A signed one-byte field. -/
def signed8 (b : Byte) : Int := b.toInt

/-- A signed two-byte field. -/
def signed16 (hi lo : Byte) : Int := (hi ++ lo : BitVec 16).toInt

/-- A key set: bit 0 of the first byte is K0 and bit 7 of the third is K23 (spec 11, opening paragraph). -/
def keySet (k0 k1 k2 : Byte) : BitVec 24 := k2 ++ k1 ++ k0

/-- A 12-bit scale set: bit 0 of the second byte is pitch class 0 (spec 11.4). -/
def scaleSet (hi lo : Byte) : BitVec 12 := (hi.extractLsb' 0 4 ++ lo : BitVec 12)

/-- Clamping to a range of integers (spec 00, Arithmetic). -/
def clampInt (low high x : Int) : Int := max low (min high x)

/-- Clamping to a range of naturals. -/
def clampNat (low high x : Nat) : Nat := max low (min high x)

/-- Division by a positive number, rounded half away from zero (R85). -/
def divHalfAway (x : Int) (d : Nat) : Int :=
  let q : Int := ((2 * x.natAbs + d) / (2 * d) : Nat)
  if x < 0 then -q else q

/-- One more on a 16-bit counter, which stops at 65535 (spec 00, Counters). -/
def countUp (n : Nat) : Nat := min 65535 (n + 1)

/-- The bits of a byte, bit 7 first (R194, R196). -/
def bitsOf (b : Byte) : List Bool :=
  [b.getLsbD 7, b.getLsbD 6, b.getLsbD 5, b.getLsbD 4, b.getLsbD 3, b.getLsbD 2, b.getLsbD 1, b.getLsbD 0]

/-- The byte whose bits, bit 7 first, are these. -/
def byteOfBits (b7 b6 b5 b4 b3 b2 b1 b0 : Bool) : Byte :=
  BitVec.ofNat 8 (128 * b7.toNat + 64 * b6.toNat + 32 * b5.toNat + 16 * b4.toNat + 8 * b3.toNat + 4 * b2.toNat
    + 2 * b1.toNat + b0.toNat)

/-- One bit of the CRC-16 (R196, steps 2 to 4). -/
def crcBit (reg : BitVec 16) (bit : Bool) : BitVec 16 :=
  let shifted := reg <<< 1
  if reg.getLsbD 15 != bit then shifted ^^^ 4129 else shifted

/-- One byte of the CRC-16, bit 7 first. -/
def crcByte (reg : BitVec 16) (b : Byte) : BitVec 16 := (bitsOf b).foldl crcBit reg

/-- The CRC-16 of the covered bytes (R196). -/
def crc16 (bytes : List Byte) : BitVec 16 := bytes.foldl crcByte 65535

/-- The CRC-16 as it is stored or sent, high byte first (R196). -/
def crcBytes (bytes : List Byte) : List Byte :=
  let c := crc16 bytes
  [c.extractLsb' 8 8, c.extractLsb' 0 8]

/-- The CRC check of a run of bytes that ends in its own CRC (R196): the last two bytes against all before them. -/
def crcGood (bytes : List Byte) : Bool :=
  let body := bytes.take (bytes.length - 2)
  decide (2 ≤ bytes.length) && decide (bytes.drop (bytes.length - 2) = crcBytes body)

/-- FOLDING (R12): subtract 12 while above 127, add 12 while below 0. Below 0 the result is the pitch class; above 127
it is the note of that pitch class in 116..127. -/
def fold (x : Int) : Nat :=
  if x < 0 then (x % 12).toNat
  else if 127 < x then (116 + (x - 116) % 12).toNat
  else x.toNat

end Sys2Proof.Machine
end

