-- ==== Sys2Proof/Machine/State.lean ====
section
/-!
DEFINITION. The state of the KB-208: every piece of state the spec gives the part, block by block as spec 00 lists
them, plus the queue of waiting commands, and the state at power-on reset. All of it is plain data. Fields that are
the model's own bookkeeping, not the spec's, say so.
-/

namespace Sys2Proof.Machine

/-! ### The start-up image -/

/-- One fingering chart entry (R5). -/
structure ChartEntry where
  care : BitVec 24
  pattern : BitVec 24
  base : Nat
  deriving DecidableEq, Repr

/-- The quantity of a gesture detector with its operand (R38 to R40). -/
inductive Watch where
  | breath (low high : Int)
  | rise (low high : Int)
  | lip (low high : Int)
  | keys (care pattern : BitVec 24)
  deriving DecidableEq, Repr

/-- The five gesture actions (R45 to R48). -/
inductive Action where
  | octaveUp
  | octaveDown
  | harmonyToggle
  | programSwap
  | report
  deriving DecidableEq, Repr

/-- The definition of a detector in use (R38). An unused detector has no definition. -/
structure DetectorDef where
  watch : Watch
  negate : Bool
  count : Nat
  action : Action
  deriving DecidableEq, Repr

/-- The pair join (R41). -/
inductive Join where
  | separate
  | both
  | either
  deriving DecidableEq, Repr

/-- One rank's part of a program: level and candidate intervals (R68). -/
structure RankProgram where
  level : Nat
  intervals : List Int
  deriving DecidableEq, Repr

/-- A program as held by a bank, after the clamps of R68. -/
structure Program where
  softWave : Nat
  brightWave : Nat
  depth : Nat
  settle : Nat
  onsetFrames : Nat
  attack : Nat
  releaseRate : Nat
  portamento : Nat
  strength : Nat
  bendGain : Nat
  deadband : Nat
  rankSet : BitVec 3
  rankPrograms : Three RankProgram
  slew : Nat
  cap : Nat
  deriving DecidableEq, Repr

/-- The installed contents of the nine image sections (R176), after the clamps of R179. The program count is the
length of the directory (R178). -/
structure Image where
  lineEnable : Bool
  keyMask : BitVec 24
  octaveKeys : Four (Option (Fin 24))
  octaveTable : List Int
  chart : List ChartEntry
  tOn : Nat
  tOff : Nat
  lipCentre : Nat
  curve : List Nat
  just : List Int
  detectorDefs : Four (Option DetectorDef)
  join01 : Join
  join23 : Join
  masterGain : Nat
  defaultKey : Nat
  defaultScale : BitVec 12
  defaultProgram : Nat
  directory : List Nat
  waves : List (List Int)
  deriving DecidableEq, Repr

/-- The image state (R175 to R178). The contents stand in the state LOADED and in no other: every block that loads
from the image holds none in IDLE, LOADING_IMAGE and FAULT (R15, R36, R49, R83, R162, R176, R177). -/
inductive ImageState where
  | idle
  | loading
  | loaded (img : Image)
  | fault
  deriving DecidableEq, Repr

/-! ### Program Banks -/

/-- The two banks, and so the value of the current-bank selector (R67). -/
inductive BankId where
  | bankA
  | bankB
  deriving DecidableEq, Repr

/-- A held program: its number and its contents (R67). -/
structure Held where
  number : Nat
  params : Program
  deriving DecidableEq, Repr

/-- The state of a bank (spec 04, 4.6). PENDING keeps the program it held before, or none. -/
inductive BankState where
  | empty
  | pending (n : Nat) (held : Option Held)
  | loading (n : Nat)
  | ready (held : Held)
  deriving DecidableEq, Repr

/-- The Program Banks block. -/
structure Banks where
  a : BankState
  b : BankState
  selector : BankId
  deriving DecidableEq, Repr

/-- The read in flight on the Image Port (R176, R180). -/
inductive ReadInFlight where
  | imageLoad
  | programRead (bank : BankId) (n : Nat)
  deriving DecidableEq, Repr

/-- The Image Loader block. `startUpDone` is set when the start-up load has ended (LOADED or FAULT): the line enable
is applied at that load alone (R136, R181). -/
structure Loader where
  image : ImageState
  reading : Option ReadInFlight
  startUpDone : Bool
  deriving DecidableEq, Repr

/-! ### Sensor Port, Note Resolver, Breath Shaper, detectors -/

/-- The contents of a valid sensor frame (spec 11.1). -/
structure SensorFrame where
  seq : Nat
  keys : BitVec 24
  breath : Nat
  lip : Nat
  deriving DecidableEq, Repr

/-- The receiver state (spec 02, 2.2). -/
inductive ReceiverState where
  | awaiting
  | receiving
  | lost
  deriving DecidableEq, Repr

/-- The Sensor Port receiver. The last sequence number is that of the last valid frame (R19). -/
structure Sensor where
  receiver : ReceiverState
  missingTimer : Nat
  lastFrame : Option SensorFrame
  missedFrames : Nat
  deriving DecidableEq, Repr

/-- What the fingering chart yields for a frame (R5). -/
inductive Candidate where
  | unresolved
  | note (n : Int)
  deriving DecidableEq, Repr

/-- The Note Resolver's state (spec 01). `keySet` is the masked key set of the last frame taken (R10);
`previous = none` is the marker "no candidate" (R7). -/
structure Resolver where
  keySet : BitVec 24
  previous : Option Candidate
  stability : Nat
  taken : Int
  octaveShift : Int
  transpose : Int
  leadNote : Nat
  unresolvedFrames : Nat
  deriving DecidableEq, Repr

/-- The articulation (spec 02, 2.5). -/
inductive Articulation where
  | silent
  | onset
  | sounding
  deriving DecidableEq, Repr

/-- The Breath Shaper's state (spec 02). `baseline = none` is "not captured". `onsetEnding` is the model's own: the
last frame evaluated ends the onset and the ONSET_END step has not been taken yet. -/
structure Breath where
  baseline : Option Nat
  captureCount : Nat
  captureSum : Nat
  net : Nat
  previousNet : Nat
  rise : Int
  level : Nat
  levelClass : Nat
  articulation : Articulation
  onsetCounter : Nat
  onsetPeak : Nat
  bend : Int
  onsetEnding : Bool
  deriving DecidableEq, Repr

/-- The running state of one detector (R43). -/
structure Detector where
  hits : Nat
  armed : Bool
  deriving DecidableEq, Repr

/-! ### Voice Table -/

/-- The role of a slot: LEAD, or HARMONY with a rank. -/
inductive Role where
  | lead
  | harmony (r : Fin 3)
  deriving DecidableEq, Repr

/-- The state of a slot that is not FREE, with the release mode of a RELEASING slot; the withdraw step is absent until
the first boundary met in WITHDRAW mode (R58). -/
inductive VoiceState where
  | provisional
  | sounding
  | releasingNormal
  | releasingWithdraw (step : Option Nat)
  deriving DecidableEq, Repr

/-- The voice in a slot that is not FREE (spec 04, 4.1, with the pitch fields of spec 05). `openingGain` holds the onset peak of a lead until its first block begins (R54, R63). -/
structure Voice where
  state : VoiceState
  role : Role
  note : Nat
  bank : BankId
  baseCurrent : Int
  baseTarget : Int
  justCurrent : Int
  justTarget : Int
  openingGain : Option Nat
  pitch : Nat
  increment : Nat
  deriving DecidableEq, Repr

/-- A slot: FREE when it holds no voice, and then without a role, a note, a bank or pitch fields (R94; DEDUCED, assumption
17). The announced flag belongs to the tag, not to the voice (R50); the gain current, the gain target and the phase are the
slot's own and stand in a FREE slot as well (R66, R174). -/
structure Slot where
  announced : Bool
  gainCurrent : Nat
  gainTarget : Nat
  phase : BitVec 32
  voice : Option Voice
  deriving DecidableEq, Repr

/-! ### Pitch Unit and Harmony Ranks -/

/-- The Pitch Unit's station state (spec 05). `none` is NONE. -/
structure Pitch where
  root : Option Nat
  previousRoot : Option Nat
  settleCount : Nat
  tuning : Int
  deriving DecidableEq, Repr

/-- The stage of a rank (R95). -/
inductive Stage where
  | idle
  | queued
  | window
  | localPending
  | sounding
  | exhausted
  deriving DecidableEq, Repr

/-- A claim number and claim note (R95, R99). -/
structure Claim where
  number : Byte
  note : Nat
  deriving DecidableEq, Repr

/-- One rank's record (spec 06). `localDue` is the model's own: a boundary has passed since the rank became
LOCAL_PENDING, and LOCAL_RESOLUTION has not been taken yet. -/
structure Rank where
  stage : Stage
  claim : Option Claim
  position : Nat
  refused : List Nat
  slot : Option (Fin 8)
  queuedAge : Nat
  windowAge : Nat
  localDue : Bool
  deriving DecidableEq, Repr

/-- The Harmony Ranks block, with the live settings it owns (R97, R118). -/
structure Harmony where
  ranks : Three Rank
  counter : Byte
  master : Bool
  liveRanks : BitVec 3
  key : Nat
  scale : BitVec 12
  deriving DecidableEq, Repr

/-! ### Section Map and Section Line -/

/-- The role as it appears on the line and in the map (R123). -/
inductive LineRole where
  | lead
  | harmony
  deriving DecidableEq, Repr

/-- One map entry (R123). -/
structure MapEntry where
  station : Fin 8
  tag : Fin 8
  note : Nat
  role : LineRole
  levelClass : Nat
  deriving DecidableEq, Repr

/-- One record of the station table (R120). -/
structure StationRecord where
  present : Bool
  age : Nat
  deriving DecidableEq, Repr

/-- The Section Map block: entries in station and tag order, and the station table. -/
structure SectionMap where
  entries : List MapEntry
  stations : Eight StationRecord
  deriving DecidableEq, Repr

/-- The reason of a HELD (R115). -/
inductive HeldReason where
  | sounding
  | earlierClaim
  deriving DecidableEq, Repr

/-- One entry of a ROSTER (spec 11.2). -/
structure RosterEntry where
  tag : Fin 8
  note : Nat
  role : LineRole
  levelClass : Nat
  deriving DecidableEq, Repr

/-- The contents of a Section Line frame after its station number (spec 11.2). -/
inductive Payload where
  | noteStart (tag : Fin 8) (note : Nat) (role : LineRole) (levelClass : Nat)
  | noteEnd (tag : Fin 8)
  | held (addressed : Fin 8) (number : Byte) (note : Nat) (reason : HeldReason)
  | claim (number : Byte) (note : Nat)
  | roster (entries : List RosterEntry)
  deriving DecidableEq, Repr

/-- A good frame: the header's station and the contents. The class and the kind follow from the contents (R143). -/
structure LineFrame where
  station : Fin 8
  payload : Payload
  deriving DecidableEq, Repr

/-- A queued record. A CLAIM keeps its rank, which is not sent (R147). A ROSTER has no contents until its
transmission starts (R150). -/
inductive Record where
  | noteStart (tag : Fin 8) (note : Nat) (role : LineRole) (levelClass : Nat)
  | noteEnd (tag : Fin 8)
  | held (addressed : Fin 8) (number : Byte) (note : Nat) (reason : HeldReason)
  | claim (rank : Fin 3) (number : Byte) (note : Nat)
  | roster
  deriving DecidableEq, Repr

/-- A record of the transmit queue with its abandon count (R145) and the mark that the frame under way was taken from
it (R151). A record that replaces another does not inherit the mark. -/
structure Queued where
  record : Record
  abandons : Nat
  underWay : Bool
  deriving DecidableEq, Repr

/-- The line state (R136 to R140). -/
inductive LineState where
  | disabled
  | joining
  | active
  | listenOnly
  | duplicateHold
  deriving DecidableEq, Repr

/-- The Section Line Controller (spec 08). `rosterTimer = none` is "stopped". `underWay` is what the frame being driven
carries (R151). `readingAbandoned` says that the frame now being read began as the own frame abandoned at a bit error,
whose break-off is not counted (R154; DEDUCED, assumption 14). -/
structure Line where
  state : LineState
  joiningTimer : Nat
  errorCounter : Nat
  decayTimer : Nat
  queue : List Queued
  rosterTimer : Option Nat
  underWay : Option Payload
  readingAbandoned : Bool
  badFrames : Nat
  recordsDropped : Nat
  heldDropped : Nat
  deriving DecidableEq, Repr

/-! ### Render Engine and Panel Port -/

/-- One frame of the audio stream: a 24-bit two's complement sample for each of the two channels (R172). -/
structure StreamFrame where
  left : BitVec 24
  right : BitVec 24
  deriving DecidableEq, Repr

/-- The Render Engine and Audio Port (spec 09). The phases stand in the slots, the wave RAM and M in the image.
`sampleIndex` counts the samples of the block in progress, 0 right after its boundary. `engineSample` is the sample
computed in the last sample period; `sent` is the last stream frame. -/
structure Audio where
  sampleIndex : Nat
  mix : Int
  engineSample : Int
  sent : StreamFrame
  clipCount : Nat
  deriving DecidableEq, Repr

/-- The thirteen events, in the order of the events table (spec 10.7, spec 11.4). -/
inductive Event where
  | sensorLost
  | sensorBack
  | baselineHigh
  | imageLoaded
  | imageFault
  | programLoaded
  | programFault
  | lineActive
  | lineListenOnly
  | duplicateStation
  | clip
  | panelOverrun
  | gestureReport
  deriving DecidableEq, Repr

/-- Where an event stands: absent from the set, in it unmarked, or in it with its reported mark (R189). -/
inductive EventMark where
  | absent
  | unmarked
  | reported
  deriving DecidableEq, Repr

/-- The event set with its reported marks (R189). -/
structure EventSet where
  sensorLost : EventMark
  sensorBack : EventMark
  baselineHigh : EventMark
  imageLoaded : EventMark
  imageFault : EventMark
  programLoaded : EventMark
  programFault : EventMark
  lineActive : EventMark
  lineListenOnly : EventMark
  duplicateStation : EventMark
  clip : EventMark
  panelOverrun : EventMark
  gestureReport : EventMark
  deriving DecidableEq, Repr

/-- The refusal codes (R186). -/
inductive RefusalCode where
  | badProgram
  | badValue
  | badMessage
  deriving DecidableEq, Repr

/-- The contents of an out record (spec 11.4), before the free space and the more-records flag are joined to it. Bytes
2 to 7 of a STATUS_STATE are kept as they are formed at its placement (R187). -/
inductive PanelRecord where
  | refused (code : RefusalCode) (kind : Byte)
  | statusState (c2 c3 c4 c5 c6 : Byte)
  | statusEvents (events : BitVec 13) (detectors : BitVec 4)
  | statusCountA (missed unresolved bad : Nat)
  | statusCountB (dropped heldDropped clips : Nat)
  | sectionEntry (report : Byte) (entry : MapEntry)
  | sectionEnd (report : Byte) (count : Nat)
  deriving DecidableEq, Repr

/-- A running section report: the key (8 × station + tag) of the last entry placed and how many were (R188). The report
number is the Panel Port's. -/
structure Report where
  lastKey : Option Nat
  count : Nat
  deriving DecidableEq, Repr

/-- The Panel Port (spec 10). The `wait…` fields hold values processed and not yet taken (R185); `…Due` is the model's
own: a boundary has passed since, and the taking step has not been taken yet. `lastSent` is the record the last
transfer moved out. -/
structure Panel where
  inFifo : List Octets
  outFifo : List PanelRecord
  lastSent : Option Octets
  report : Option Report
  reportNumber : Byte
  events : EventSet
  gestureSet : BitVec 4
  waitTranspose : Option Int
  waitTuning : Option Int
  waitKey : Option (Nat × BitVec 12)
  waitRanks : Option (BitVec 3)
  transposeDue : Bool
  tuningDue : Bool
  keyDue : Bool
  ranksDue : Bool
  deriving DecidableEq, Repr

/-- Power-on reset and the straps as read at its release (R175). -/
structure Power where
  resetHeld : Bool
  station : Fin 8
  deriving DecidableEq, Repr

/-! ### The whole part -/

/-- The state of the part, and the queue of commands waiting (first in, first out). -/
structure State where
  pending : List Instr
  power : Power
  loader : Loader
  sensor : Sensor
  resolver : Resolver
  breath : Breath
  detectors : Four Detector
  slots : Eight Slot
  banks : Banks
  pitch : Pitch
  harmony : Harmony
  map : SectionMap
  line : Line
  audio : Audio
  panel : Panel
  deriving DecidableEq, Repr

/-- The part never stops with a fault: the spec gives every command an effect or leaves the state as it was. -/
inductive Fault where
  deriving DecidableEq, Repr

/-- Why a command has no meaning. -/
inductive Refusal where
  /-- Raised by exec's arm for a command that has no meaning yet (none at present). Safe. -/
  | notModelled (mnemonic : String)
  deriving DecidableEq, Repr

/-! ### Reset values -/

/-- R15; the key set DESIGN CHOICE, assumption 25. -/
def Resolver.reset : Resolver :=
  { keySet := 0, previous := none, stability := 0, taken := 60, octaveShift := 0, transpose := 0, leadNote := 60,
    unresolvedFrames := 0 }

/-- R36. -/
def Sensor.reset : Sensor := { receiver := .awaiting, missingTimer := 0, lastFrame := none, missedFrames := 0 }

/-- R36. -/
def Breath.reset : Breath :=
  { baseline := none, captureCount := 0, captureSum := 0, net := 0, previousNet := 0, rise := 0, level := 0,
    levelClass := 0, articulation := .silent, onsetCounter := 0, onsetPeak := 0, bend := 0, onsetEnding := false }

/-- R49. -/
def Detector.reset : Detector := { hits := 0, armed := true }

/-- R49. -/
def detectorsReset : Four Detector := ⟨Detector.reset, Detector.reset, Detector.reset, Detector.reset⟩

/-- R66, R174: FREE, announced false, gain current and gain target 0, phase 0. -/
def Slot.reset : Slot := { announced := false, gainCurrent := 0, gainTarget := 0, phase := 0, voice := none }

/-- R66. -/
def slotsReset : Eight Slot :=
  ⟨Slot.reset, Slot.reset, Slot.reset, Slot.reset, Slot.reset, Slot.reset, Slot.reset, Slot.reset⟩

/-- R74. -/
def Banks.reset : Banks := { a := .empty, b := .empty, selector := .bankA }

/-- R82, R94. -/
def Pitch.reset : Pitch := { root := none, previousRoot := none, settleCount := 0, tuning := 0 }

/-- R119; the ages DESIGN CHOICE, assumption 25. -/
def Rank.reset : Rank :=
  { stage := .idle, claim := none, position := 0, refused := [], slot := none, queuedAge := 0, windowAge := 0,
    localDue := false }

/-- R119, R185: the claim counter 0, the master enable true, all three ranks, key 0 with all twelve classes. -/
def Harmony.reset : Harmony :=
  { ranks := ⟨Rank.reset, Rank.reset, Rank.reset⟩, counter := 0, master := true, liveRanks := 7, key := 0,
    scale := 4095 }

/-- R133. -/
def StationRecord.reset : StationRecord := { present := false, age := 0 }

/-- R133. -/
def SectionMap.reset : SectionMap :=
  { entries := [],
    stations := ⟨StationRecord.reset, StationRecord.reset, StationRecord.reset, StationRecord.reset,
      StationRecord.reset, StationRecord.reset, StationRecord.reset, StationRecord.reset⟩ }

/-- R157; no frame under way DESIGN CHOICE, assumption 25. -/
def Line.reset : Line :=
  { state := .disabled, joiningTimer := 0, errorCounter := 0, decayTimer := 0, queue := [], rosterTimer := none,
    underWay := none, readingAbandoned := false, badFrames := 0, recordsDropped := 0, heldDropped := 0 }

/-- R174: zeros sent; the sample number, the mix and the engine's sample DESIGN CHOICE, assumption 25. -/
def Audio.reset : Audio := { sampleIndex := 0, mix := 0, engineSample := 0, sent := { left := 0, right := 0 }, clipCount := 0 }

/-- R189. -/
def EventSet.empty : EventSet :=
  { sensorLost := .absent, sensorBack := .absent, baselineHigh := .absent, imageLoaded := .absent,
    imageFault := .absent, programLoaded := .absent, programFault := .absent, lineActive := .absent,
    lineListenOnly := .absent, duplicateStation := .absent, clip := .absent, panelOverrun := .absent,
    gestureReport := .absent }

/-- R192; no record sent DESIGN CHOICE, assumption 25. -/
def Panel.reset : Panel :=
  { inFifo := [], outFifo := [], lastSent := none, report := none, reportNumber := 0, events := EventSet.empty,
    gestureSet := 0, waitTranspose := none, waitTuning := none, waitKey := none, waitRanks := none,
    transposeDue := false, tuningDue := false, keyDue := false, ranksDue := false }

/-- R175: image state IDLE while power-on reset is asserted, no read in flight. -/
def Loader.reset : Loader := { image := .idle, reading := none, startUpDone := false }

/-- Power-on reset asserted. The station number has no value before the straps are read at the release: 0 stands for it
and nothing reads it until then (DESIGN CHOICE, assumption 2). -/
def Power.reset : Power := { resetHeld := true, station := 0 }

/-- The part in power-on reset (R175): every block at the power-on values its chapter gives, no command waiting. -/
def State.reset : State :=
  { pending := [], power := Power.reset, loader := Loader.reset, sensor := Sensor.reset, resolver := Resolver.reset,
    breath := Breath.reset, detectors := detectorsReset, slots := slotsReset, banks := Banks.reset,
    pitch := Pitch.reset, harmony := Harmony.reset, map := SectionMap.reset, line := Line.reset,
    audio := Audio.reset, panel := Panel.reset }

end Sys2Proof.Machine
end

