-- ==== Sys2Proof/Machine/LineFormat.lean ====
section
/-!
DEFINITION. Section Line frames (spec 11.2, R142, R143, R194, R195): the bytes and bits of a frame this part sends, and
the reading of a received one.
-/

namespace Sys2Proof.Machine

/-! ### Sending -/

/-- The class of a frame (R143). -/
def Payload.cls : Payload → Nat
  | .noteStart _ _ _ _ => 0
  | .noteEnd _ => 0
  | .held _ _ _ _ => 1
  | .claim _ _ => 2
  | .roster _ => 3

/-- The kind code of a frame (spec 11.2). -/
def Payload.kind : Payload → Nat
  | .noteStart _ _ _ _ => 1
  | .noteEnd _ => 2
  | .held _ _ _ _ => 3
  | .claim _ _ => 4
  | .roster _ => 5

/-- The header byte: class in bits 7..6, station in bits 5..3, kind in bits 2..0 (spec 11.2). -/
def headerByte (station : Fin 8) (p : Payload) : Byte :=
  BitVec.ofNat 8 (64 * p.cls + 8 * station.val + p.kind)

/-- The role-and-class byte (spec 11.2). -/
def roleClassByte (role : LineRole) (cls : Nat) : Byte :=
  BitVec.ofNat 8 (2 * cls + (match role with | .lead => 0 | .harmony => 1))

/-- A ROSTER entry: tag, note, role-and-class. -/
def rosterEntryBytes (e : RosterEntry) : List Byte :=
  [BitVec.ofNat 8 e.tag.val, BitVec.ofNat 8 e.note, roleClassByte e.role e.levelClass]

/-- The reason byte of a HELD. -/
def reasonByte : HeldReason → Byte
  | .sounding => 0
  | .earlierClaim => 1

/-- The payload bytes (spec 11.2, Payloads). -/
def Payload.bytes : Payload → List Byte
  | .noteStart tag note role cls => [BitVec.ofNat 8 tag.val, BitVec.ofNat 8 note, roleClassByte role cls]
  | .noteEnd tag => [BitVec.ofNat 8 tag.val]
  | .held st k n r => [BitVec.ofNat 8 st.val, k, BitVec.ofNat 8 n, reasonByte r]
  | .claim k n => [k, BitVec.ofNat 8 n]
  | .roster es => BitVec.ofNat 8 es.length :: es.flatMap rosterEntryBytes

/-- The bytes a CRC covers: header, length, payload (spec 11.2). -/
def LineFrame.covered (f : LineFrame) : List Byte :=
  headerByte f.station f.payload :: BitVec.ofNat 8 f.payload.bytes.length :: f.payload.bytes

/-- All the bytes of a frame, CRC last (spec 11.2). -/
def LineFrame.bytes (f : LineFrame) : List Byte := f.covered ++ crcBytes f.covered

/-- The bits of bytes on the line with a separator 0 between neighbours and none after the last (R194). -/
def lineBits : List Byte → List Bool
  | [] => []
  | [b] => bitsOf b
  | b :: c :: rest => bitsOf b ++ false :: lineBits (c :: rest)

/-- The bits a sender puts on the line for a frame, start bit first, 0 dominant (R142, R194). -/
def LineFrame.bits (f : LineFrame) : List Bool := false :: lineBits f.bytes

/-! ### Receiving -/

/-- The payload lengths a kind code allows; none for a kind code that names no kind (spec 11.2, Payloads). -/
def allowedLength (kind len : Nat) : Option Bool :=
  match kind with
  | 1 => some (decide (len = 3))
  | 2 => some (decide (len = 1))
  | 3 => some (decide (len = 4))
  | 4 => some (decide (len = 2))
  | 5 => some (decide (1 ≤ len ∧ (len - 1) % 3 = 0 ∧ len ≤ 25))
  | _ => none

/-- What a receiver makes of the bits that follow a start bit (R142, R194). -/
inductive Reading where
  /-- The last bit of the CRC was read: the bytes of the frame. -/
  | complete (bytes : List Byte)
  /-- The length byte is not one its kind allows: the receiver stopped there. -/
  | stopped (header length : Byte)
  /-- A separator read 1, or the bits ended before the CRC did. -/
  | broken
  deriving DecidableEq, Repr

/-- One byte from the line, bit 7 first. -/
def takeByte : List Bool → Option (Byte × List Bool)
  | b7 :: b6 :: b5 :: b4 :: b3 :: b2 :: b1 :: b0 :: rest => some (byteOfBits b7 b6 b5 b4 b3 b2 b1 b0, rest)
  | _ => none

/-- A byte and the separator 0 after it; none where a separator reads 1 or the bits end. -/
def takeSeparated (bits : List Bool) : Option (Byte × List Bool) :=
  match takeByte bits with
  | some (b, false :: rest) => some (b, rest)
  | _ => none

/-- `n + 1` bytes with separators between them and none after the last. -/
def takeBytes : Nat → List Bool → Option (List Byte)
  | 0, bits =>
    match takeByte bits with
    | some (b, _) => some [b]
    | none => none
  | n + 1, bits =>
    match takeSeparated bits with
    | some (b, rest) =>
      match takeBytes n rest with
      | some bs => some (b :: bs)
      | none => none
    | none => none

/-- The receiver reads the header and the payload length, stops there if the kind does not allow that length, and else
reads the payload and the CRC (R142). -/
def readBits (bits : List Bool) : Reading :=
  match takeSeparated bits with
  | none => .broken
  | some (h, rest) =>
    match takeByte rest with
    | none => .broken
    | some (l, after) =>
      if allowedLength (h.toNat % 8) l.toNat = some false then .stopped h l
      else
        match after with
        | false :: rest' =>
          match takeBytes (l.toNat + 1) rest' with
          | some bs => .complete (h :: l :: bs)
          | none => .broken
        | _ => .broken

/-- A byte that must name a tag or a station 0..7 (R195). -/
def readEighth (b : Byte) : Option (Fin 8) := if h : b.toNat < 8 then some ⟨b.toNat, h⟩ else none

/-- A byte that must be a note 0..127 (R195). -/
def readNote (b : Byte) : Option Nat := if b.toNat ≤ 127 then some b.toNat else none

/-- The role in bit 0 (spec 11.2); other bits are ignored. -/
def readRole (b : Byte) : LineRole := if b.toNat % 2 = 1 then .harmony else .lead

/-- The level class in bits 2..1 (spec 11.2). -/
def readClass (b : Byte) : Nat := b.toNat / 2 % 4

/-- The reason of a HELD (R195). -/
def readReason (b : Byte) : Option HeldReason :=
  match b.toNat with
  | 0 => some .sounding
  | 1 => some .earlierClaim
  | _ => none

/-- The entries of a ROSTER, three bytes each. -/
def readRosterEntries : List Byte → Option (List RosterEntry)
  | [] => some []
  | t :: n :: rc :: rest => do
    let tag ← readEighth t
    let note ← readNote n
    let more ← readRosterEntries rest
    pure ({ tag := tag, note := note, role := readRole rc, levelClass := readClass rc } :: more)
  | _ => none

/-- The payload of a frame of this kind, or none where its length or a field fails the tests of R195. -/
def readPayload (kind : Nat) (bytes : List Byte) : Option Payload :=
  match kind, bytes with
  | 1, [t, n, rc] => do
    let tag ← readEighth t
    let note ← readNote n
    pure (.noteStart tag note (readRole rc) (readClass rc))
  | 2, [t] => do
    let tag ← readEighth t
    pure (.noteEnd tag)
  | 3, [a, k, n, r] => do
    let st ← readEighth a
    let note ← readNote n
    let reason ← readReason r
    pure (.held st k note reason)
  | 4, [k, n] => do
    let note ← readNote n
    pure (.claim k note)
  | 5, c :: rest =>
    if c.toNat ≤ 8 ∧ rest.length = 3 * c.toNat then do
      let es ← readRosterEntries rest
      pure (.roster es)
    else none
  | _, _ => none

/-- The reading of a frame ends at its length byte, which its kind does not allow (R142). -/
def stopsAtLength : List Byte → Bool
  | h :: l :: _ => decide (allowedLength (h.toNat % 8) l.toNat = some false)
  | _ => false

/-- What a receiver makes of the bytes of a frame. -/
inductive Verdict where
  /-- Not the bytes of a completed frame. -/
  | incomplete
  /-- A frame discarded under R143: bad CRC, unknown kind, a bad length or field, or a class that is not its kind's. -/
  | discard
  | good (f : LineFrame)
  deriving DecidableEq, Repr

/-- The tests of R143 and R195 on a frame whose bytes are these. A length the kind does not allow is found when the
length byte is read (R142), so such a frame is discarded whatever follows. -/
def verdict (bytes : List Byte) : Verdict :=
  match bytes with
  | h :: l :: rest =>
    if allowedLength (h.toNat % 8) l.toNat = some false then .discard
    else if rest.length ≠ l.toNat + 2 then .incomplete
    else if !crcGood bytes then .discard
    else
      match readPayload (h.toNat % 8) (rest.take l.toNat) with
      | none => .discard
      | some p =>
        if h.toNat / 64 = p.cls then .good { station := ⟨h.toNat / 8 % 8, Nat.mod_lt _ (by decide)⟩, payload := p }
        else .discard
  | _ => .incomplete

end Sys2Proof.Machine
end

