-- ==== Sys2Proof/Machine/PanelFormat.lean ====
section
/-!
DEFINITION. Panel messages and records (spec 11.4).
-/

namespace Sys2Proof.Machine

/-- A panel message with its fields as they were sent (spec 11.4). -/
inductive Message where
  | idle
  | program (n : Nat)
  | transpose (semitones : Int)
  | tuning (steps : Int)
  | key (key : Nat) (scale : BitVec 12)
  | ranks (set : BitVec 3)
  | allOff
  | status
  | sectionReport
  | ack (events : BitVec 13)
  | reload
  | unknown (kind : Byte)
  deriving DecidableEq, Repr

/-- The message in eight bytes: byte 0 is its kind code, and bytes outside its fields are ignored (R186, spec 11.4). -/
def readMessage (m : Octets) : Message :=
  match m.b0.toNat with
  | 0 => .idle
  | 1 => .program m.b1.toNat
  | 2 => .transpose (signed8 m.b1)
  | 3 => .tuning (signed16 m.b1 m.b2)
  | 4 => .key m.b1.toNat (scaleSet m.b2 m.b3)
  | 5 => .ranks (m.b1.extractLsb' 0 3)
  | 6 => .allOff
  | 7 => .status
  | 8 => .sectionReport
  | 9 => .ack ((m.b1 ++ m.b2 : BitVec 16).extractLsb' 0 13)
  | 10 => .reload
  | _ => .unknown m.b0

/-- The records a message may place in the out FIFO (R183). -/
def Message.room : Message → Nat
  | .program _ => 1
  | .key _ _ => 1
  | .unknown _ => 1
  | .status => 4
  | _ => 0

/-- The refusal codes of a REFUSED (spec 11.4). -/
def RefusalCode.byte : RefusalCode → Byte
  | .badProgram => 1
  | .badValue => 2
  | .badMessage => 3

/-- The high byte of a 16-bit counter. -/
def highByte (n : Nat) : Byte := BitVec.ofNat 8 (n / 256)

/-- The low byte of a 16-bit counter. -/
def lowByte (n : Nat) : Byte := BitVec.ofNat 8 n

/-- Byte 1 of every record: the free space in bits 3..0 and the more-records flag in bit 7 (spec 11.4). -/
def statusByte (free : Nat) (more : Bool) : Byte := BitVec.ofNat 8 (free + if more then 128 else 0)

/-- The eight bytes of a record as it is sent (spec 11.4). -/
def PanelRecord.bytes (r : PanelRecord) (free : Nat) (more : Bool) : Octets :=
  let s := statusByte free more
  match r with
  | .refused code kind => ⟨1, s, code.byte, kind, 0, 0, 0, 0⟩
  | .statusState c2 c3 c4 c5 c6 => ⟨2, s, c2, c3, c4, c5, c6, 0⟩
  | .statusEvents e d => ⟨3, s, (e.extractLsb' 8 5).setWidth 8, e.extractLsb' 0 8, d.setWidth 8, 0, 0, 0⟩
  | .statusCountA a b c => ⟨4, s, highByte a, lowByte a, highByte b, lowByte b, highByte c, lowByte c⟩
  | .statusCountB a b c => ⟨5, s, highByte a, lowByte a, highByte b, lowByte b, highByte c, lowByte c⟩
  | .sectionEntry n e =>
    ⟨6, s, n, BitVec.ofNat 8 e.station.val, BitVec.ofNat 8 e.tag.val, BitVec.ofNat 8 e.note,
      roleClassByte e.role e.levelClass, 0⟩
  | .sectionEnd n count => ⟨7, s, n, BitVec.ofNat 8 count, 0, 0, 0, 0⟩

/-- The IDLE record, sent where the out FIFO was empty (R182). -/
def idleRecord (free : Nat) : Octets := ⟨0, statusByte free false, 0, 0, 0, 0, 0, 0⟩

/-- The image state code (spec 11.4). -/
def ImageState.code : ImageState → Nat
  | .idle => 0
  | .loading => 1
  | .loaded _ => 2
  | .fault => 3

/-- The line state code (spec 11.4). -/
def LineState.code : LineState → Nat
  | .disabled => 0
  | .joining => 1
  | .active => 2
  | .listenOnly => 3
  | .duplicateHold => 4

/-- The bank state code and the program field (spec 11.4). -/
def BankState.code : BankState → Nat × Nat
  | .empty => (0, 0)
  | .pending n _ => (1, n)
  | .loading n => (2, n)
  | .ready h => (3, h.number)

/-- A byte of STATUS_STATE for a bank: state in bits 1..0, program in bits 5..2 (spec 11.4). -/
def BankState.byte (b : BankState) : Nat := b.code.1 + 4 * b.code.2

/-- A note with bit 7 set when present, or 0 (spec 11.4). -/
def optionalNote : Option Nat → Byte
  | some n => BitVec.ofNat 8 (128 + n)
  | none => 0

end Sys2Proof.Machine
end

