-- ==== Sys2Proof/Machine/Flags.lean ====
section
/-!
DEFINITION. The event set with its reported marks, ATTN, and the counters (R189 to R192).
-/

namespace Sys2Proof.Machine

/-- Where an event stands. -/
def EventSet.mark (es : EventSet) : Event → EventMark
  | .sensorLost => es.sensorLost
  | .sensorBack => es.sensorBack
  | .baselineHigh => es.baselineHigh
  | .imageLoaded => es.imageLoaded
  | .imageFault => es.imageFault
  | .programLoaded => es.programLoaded
  | .programFault => es.programFault
  | .lineActive => es.lineActive
  | .lineListenOnly => es.lineListenOnly
  | .duplicateStation => es.duplicateStation
  | .clip => es.clip
  | .panelOverrun => es.panelOverrun
  | .gestureReport => es.gestureReport

/-- The set with one event's standing replaced. -/
def EventSet.setMark (es : EventSet) (e : Event) (m : EventMark) : EventSet :=
  match e with
  | .sensorLost => { es with sensorLost := m }
  | .sensorBack => { es with sensorBack := m }
  | .baselineHigh => { es with baselineHigh := m }
  | .imageLoaded => { es with imageLoaded := m }
  | .imageFault => { es with imageFault := m }
  | .programLoaded => { es with programLoaded := m }
  | .programFault => { es with programFault := m }
  | .lineActive => { es with lineActive := m }
  | .lineListenOnly => { es with lineListenOnly := m }
  | .duplicateStation => { es with duplicateStation := m }
  | .clip => { es with clip := m }
  | .panelOverrun => { es with panelOverrun := m }
  | .gestureReport => { es with gestureReport := m }

/-- The thirteen events in the order of their bits (spec 11.4). -/
def allEvents : List Event :=
  [.sensorLost, .sensorBack, .baselineHigh, .imageLoaded, .imageFault, .programLoaded, .programFault, .lineActive,
    .lineListenOnly, .duplicateStation, .clip, .panelOverrun, .gestureReport]

/-- The bit of an event in an event set of two bytes (spec 11.4). -/
def Event.bit : Event → Nat
  | .sensorLost => 0
  | .sensorBack => 1
  | .baselineHigh => 2
  | .imageLoaded => 3
  | .imageFault => 4
  | .programLoaded => 5
  | .programFault => 6
  | .lineActive => 7
  | .lineListenOnly => 8
  | .duplicateStation => 9
  | .clip => 10
  | .panelOverrun => 11
  | .gestureReport => 12

/-- The event set as STATUS_EVENTS carries it (R187, spec 11.4). -/
def EventSet.bits (es : EventSet) : BitVec 13 :=
  BitVec.ofNat 13 (allEvents.foldl (fun acc e => acc + if es.mark e = .absent then 0 else 2 ^ e.bit) 0)

/-- An occurrence enters the event if absent and clears its reported mark in either case (R189). -/
def EventSet.occur (es : EventSet) (e : Event) : EventSet := es.setMark e .unmarked

/-- STATUS marks one event reported if it stands (R187). -/
def EventMark.report : EventMark → EventMark
  | .absent => .absent
  | _ => .reported

/-- STATUS marks every standing event (R187). -/
def EventSet.reportAll (es : EventSet) : EventSet :=
  allEvents.foldl (fun acc e => acc.setMark e (acc.mark e).report) es

/-- ACK removes a listed event that stands marked reported (R190). -/
def EventSet.ackOne (es : EventSet) (listed : BitVec 13) (e : Event) : EventSet :=
  if listed.getLsbD e.bit && decide (es.mark e = .reported) then es.setMark e .absent else es

/-- ACK of a set of events (R190). -/
def EventSet.ack (es : EventSet) (listed : BitVec 13) : EventSet :=
  allEvents.foldl (fun acc e => acc.ackOne listed e) es

/-- ATTN: asserted while the event set holds at least one event (R191), and so computed from it (DEDUCED, assumption 24). -/
def State.attn (s : State) : Bool := decide (s.panel.events.bits ≠ 0)

/-- Raise an event (R189). -/
def raise (e : Event) (s : State) : State :=
  { s with panel := { s.panel with events := s.panel.events.occur e } }

/-- REPORT fired by detector `d`: GESTURE_REPORT with the number joined to its detector set (R48). -/
def raiseGesture (d : Fin 4) (s : State) : State :=
  let s := raise .gestureReport s
  { s with panel := { s.panel with gestureSet := s.panel.gestureSet ||| BitVec.ofNat 4 (2 ^ d.val) } }

/-- One more bad line frame received (R143). -/
def countBadFrame (s : State) : State := { s with line := { s.line with badFrames := countUp s.line.badFrames } }

end Sys2Proof.Machine
end

