-- ==== Sys2Proof/Machine/Increment.lean ====
section
/-!
DEFINITION. The increment table E (R90) and the phase increment of a pitch (R91, R92). E is fixed in the part. Its 1,201
entries stand in pieces of one hundred; Sys2Proof/Laws/Increment.lean checks every one against the formula of R90.
-/

namespace Sys2Proof.Machine

/-- E[0]..E[99] (R90). -/
def incrementPiece0 : List Nat :=
  [749115498, 749548329, 749981410, 750414741, 750848323, 751282156, 751716238, 752150572, 752585157, 753019993,
   753455080, 753890418, 754326008, 754761850, 755197943, 755634289, 756070886, 756507736, 756944838, 757382193,
   757819801, 758257661, 758695774, 759134141, 759572760, 760011634, 760450760, 760890141, 761329775, 761769664,
   762209806, 762650203, 763090854, 763531760, 763972921, 764414336, 764856007, 765297933, 765740114, 766182550,
   766625243, 767068191, 767511395, 767954855, 768398571, 768842543, 769286773, 769731258, 770176001, 770621001,
   771066257, 771511771, 771957543, 772403572, 772849858, 773296403, 773743206, 774190266, 774637585, 775085163,
   775532999, 775981094, 776429447, 776878060, 777326932, 777776064, 778225454, 778675105, 779125015, 779575185,
   780025616, 780476306, 780927257, 781378469, 781829941, 782281674, 782733669, 783185924, 783638440, 784091219,
   784544258, 784997560, 785451123, 785904948, 786359036, 786813386, 787267999, 787722874, 788178012, 788633413,
   789089077, 789545004, 790001195, 790457649, 790914368, 791371350, 791828596, 792286106, 792743881, 793201920]

/-- E[100]..E[199] (R90). -/
def incrementPiece1 : List Nat :=
  [793660223, 794118792, 794577625, 795036724, 795496088, 795955717, 796415612, 796875773, 797336199, 797796892,
   798257850, 798719075, 799180567, 799642325, 800104350, 800566642, 801029201, 801492027, 801955121, 802418482,
   802882111, 803346008, 803810173, 804274606, 804739307, 805204277, 805669516, 806135023, 806600799, 807066845,
   807533160, 807999744, 808466598, 808933721, 809401115, 809868778, 810336712, 810804916, 811273390, 811742136,
   812211152, 812680439, 813149997, 813619827, 814089928, 814560300, 815030945, 815501861, 815973049, 816444510,
   816916243, 817388249, 817860527, 818333078, 818805903, 819279000, 819752371, 820226015, 820699933, 821174125,
   821648591, 822123331, 822598345, 823073634, 823549197, 824025035, 824501148, 824977536, 825454199, 825931138,
   826408353, 826885843, 827363609, 827841651, 828319969, 828798563, 829277435, 829756582, 830236007, 830715709,
   831195687, 831675944, 832156477, 832637289, 833118378, 833599745, 834081390, 834563313, 835045515, 835527996,
   836010755, 836493793, 836977111, 837460707, 837944583, 838428739, 838913174, 839397889, 839882885, 840368160]

/-- E[200]..E[299] (R90). -/
def incrementPiece2 : List Nat :=
  [840853716, 841339553, 841825670, 842312068, 842798747, 843285707, 843772949, 844260472, 844748277, 845236363,
   845724732, 846213383, 846702316, 847191532, 847681030, 848170812, 848660876, 849151223, 849641854, 850132768,
   850623966, 851115447, 851607213, 852099263, 852591597, 853084215, 853577118, 854070306, 854563779, 855057537,
   855551580, 856045909, 856540523, 857035423, 857530609, 858026082, 858521840, 859017885, 859514217, 860010835,
   860507740, 861004932, 861502412, 862000179, 862498234, 862996576, 863495207, 863994125, 864493332, 864992827,
   865492611, 865992683, 866493045, 866993695, 867494635, 867995864, 868497383, 868999192, 869501291, 870003679,
   870506358, 871009328, 871512588, 872016139, 872519980, 873024113, 873528538, 874033253, 874538260, 875043559,
   875549150, 876055034, 876561209, 877067677, 877574437, 878081491, 878588837, 879096476, 879604409, 880112635,
   880621155, 881129969, 881639076, 882148478, 882658174, 883168165, 883678450, 884189030, 884699906, 885211076,
   885722542, 886234303, 886746360, 887258712, 887771361, 888284306, 888797547, 889311085, 889824920, 890339051]

/-- E[300]..E[399] (R90). -/
def incrementPiece3 : List Nat :=
  [890853480, 891368206, 891883229, 892398550, 892914168, 893430085, 893946299, 894462812, 894979623, 895496733,
   896014142, 896531849, 897049856, 897568162, 898086767, 898605673, 899124877, 899644382, 900164187, 900684293,
   901204699, 901725405, 902246413, 902767721, 903289331, 903811242, 904333455, 904855969, 905378786, 905901904,
   906425325, 906949048, 907473073, 907997402, 908522033, 909046968, 909572205, 910097747, 910623592, 911149740,
   911676193, 912202950, 912730011, 913257377, 913785048, 914313023, 914841303, 915369889, 915898780, 916427977,
   916957479, 917487288, 918017402, 918547823, 919078551, 919609584, 920140925, 920672573, 921204528, 921736790,
   922269360, 922802238, 923335423, 923868917, 924402718, 924936829, 925471247, 926005975, 926541012, 927076357,
   927612012, 928147977, 928684251, 929220835, 929757729, 930294933, 930832448, 931370273, 931908409, 932446856,
   932985614, 933524683, 934064064, 934603756, 935143761, 935684077, 936224705, 936765646, 937306899, 937848466,
   938390345, 938932537, 939475042, 940017861, 940560993, 941104440, 941648200, 942192274, 942736663, 943281366]

/-- E[400]..E[499] (R90). -/
def incrementPiece4 : List Nat :=
  [943826385, 944371718, 944917366, 945463329, 946009608, 946556202, 947103112, 947650339, 948197881, 948745740,
   949293915, 949842407, 950391216, 950940342, 951489786, 952039546, 952589625, 953140021, 953690735, 954241768,
   954793119, 955344788, 955896777, 956449084, 957001710, 957554655, 958107920, 958661505, 959215410, 959769634,
   960324179, 960879044, 961434230, 961989737, 962545564, 963101713, 963658183, 964214975, 964772088, 965329523,
   965887281, 966445360, 967003762, 967562487, 968121534, 968680905, 969240598, 969800615, 970360956, 970921620,
   971482609, 972043921, 972605558, 973167519, 973729805, 974292416, 974855352, 975418613, 975982200, 976546112,
   977110350, 977674914, 978239805, 978805021, 979370564, 979936435, 980502632, 981069156, 981636007, 982203186,
   982770693, 983338527, 983906690, 984475181, 985044000, 985613149, 986182625, 986752431, 987322567, 987893031,
   988463825, 989034950, 989606404, 990178188, 990750302, 991322747, 991895523, 992468630, 993042068, 993615837,
   994189938, 994764371, 995339135, 995914232, 996489660, 997065422, 997641516, 998217942, 998794702, 999371795]

/-- E[500]..E[599] (R90). -/
def incrementPiece5 : List Nat :=
  [999949222, 1000526982, 1001105076, 1001683504, 1002262266, 1002841363, 1003420794, 1004000560, 1004580661, 1005161097,
   1005741869, 1006322976, 1006904419, 1007486198, 1008068313, 1008650764, 1009233552, 1009816676, 1010400138, 1010983936,
   1011568072, 1012152546, 1012737357, 1013322506, 1013907993, 1014493818, 1015079982, 1015666485, 1016253326, 1016840507,
   1017428026, 1018015886, 1018604085, 1019192623, 1019781502, 1020370721, 1020960281, 1021550181, 1022140422, 1022731004,
   1023321927, 1023913192, 1024504798, 1025096746, 1025689036, 1026281669, 1026874643, 1027467961, 1028061621, 1028655624,
   1029249971, 1029844660, 1030439694, 1031035071, 1031630792, 1032226858, 1032823268, 1033420022, 1034017121, 1034614566,
   1035212355, 1035810490, 1036408970, 1037007797, 1037606969, 1038206487, 1038806352, 1039406563, 1040007122, 1040608027,
   1041209279, 1041810879, 1042412826, 1043015122, 1043617765, 1044220756, 1044824096, 1045427784, 1046031822, 1046636208,
   1047240943, 1047846028, 1048451462, 1049057247, 1049663381, 1050269865, 1050876700, 1051483886, 1052091422, 1052699310,
   1053307548, 1053916138, 1054525080, 1055134374, 1055744019, 1056354017, 1056964367, 1057575070, 1058186126, 1058797535]

/-- E[600]..E[699] (R90). -/
def incrementPiece6 : List Nat :=
  [1059409297, 1060021412, 1060633882, 1061246705, 1061859882, 1062473413, 1063087299, 1063701540, 1064316136, 1064931086,
   1065546392, 1066162054, 1066778071, 1067394444, 1068011174, 1068628259, 1069245702, 1069863501, 1070481656, 1071100169,
   1071719040, 1072338268, 1072957854, 1073577798, 1074198100, 1074818760, 1075439779, 1076061157, 1076682894, 1077304990,
   1077927445, 1078550260, 1079173435, 1079796970, 1080420866, 1081045122, 1081669738, 1082294716, 1082920054, 1083545754,
   1084171815, 1084798238, 1085425023, 1086052171, 1086679680, 1087307552, 1087935787, 1088564385, 1089193346, 1089822671,
   1090452359, 1091082411, 1091712827, 1092343607, 1092974752, 1093606261, 1094238135, 1094870374, 1095502979, 1096135949,
   1096769285, 1097402987, 1098037055, 1098671489, 1099306290, 1099941458, 1100576992, 1101212894, 1101849163, 1102485800,
   1103122805, 1103760178, 1104397919, 1105036028, 1105674506, 1106313354, 1106952570, 1107592155, 1108232110, 1108872435,
   1109513130, 1110154195, 1110795631, 1111437437, 1112079614, 1112722162, 1113365081, 1114008371, 1114652034, 1115296068,
   1115940474, 1116585253, 1117230404, 1117875928, 1118521825, 1119168096, 1119814739, 1120461756, 1121109147, 1121756912]

/-- E[700]..E[799] (R90). -/
def incrementPiece7 : List Nat :=
  [1122405052, 1123053566, 1123702454, 1124351718, 1125001356, 1125651370, 1126301760, 1126952525, 1127603667, 1128255184,
   1128907078, 1129559349, 1130211996, 1130865021, 1131518423, 1132172202, 1132826360, 1133480895, 1134135808, 1134791100,
   1135446770, 1136102820, 1136759248, 1137416055, 1138073242, 1138730809, 1139388756, 1140047083, 1140705790, 1141364878,
   1142024347, 1142684196, 1143344427, 1144005040, 1144666034, 1145327410, 1145989168, 1146651308, 1147313831, 1147976737,
   1148640026, 1149303698, 1149967754, 1150632193, 1151297017, 1151962224, 1152627816, 1153293792, 1153960153, 1154626899,
   1155294030, 1155961547, 1156629449, 1157297738, 1157966412, 1158635473, 1159304921, 1159974755, 1160644976, 1161315585,
   1161986580, 1162657964, 1163329736, 1164001895, 1164674444, 1165347380, 1166020706, 1166694420, 1167368524, 1168043017,
   1168717900, 1169393173, 1170068836, 1170744890, 1171421334, 1172098169, 1172775395, 1173453012, 1174131021, 1174809422,
   1175488214, 1176167399, 1176846976, 1177526946, 1178207309, 1178888064, 1179569214, 1180250756, 1180932693, 1181615023,
   1182297748, 1182980867, 1183664381, 1184348290, 1185032594, 1185717294, 1186402389, 1187087879, 1187773766, 1188460050]

/-- E[800]..E[899] (R90). -/
def incrementPiece8 : List Nat :=
  [1189146729, 1189833806, 1190521279, 1191209150, 1191897418, 1192586084, 1193275148, 1193964610, 1194654470, 1195344729,
   1196035386, 1196726443, 1197417899, 1198109754, 1198802010, 1199494665, 1200187720, 1200881176, 1201575033, 1202269290,
   1202963949, 1203659009, 1204354470, 1205050334, 1205746599, 1206443267, 1207140337, 1207837810, 1208535686, 1209233965,
   1209932648, 1210631734, 1211331225, 1212031119, 1212731418, 1213432122, 1214133230, 1214834743, 1215536662, 1216238986,
   1216941717, 1217644853, 1218348395, 1219052344, 1219756700, 1220461462, 1221166632, 1221872209, 1222578194, 1223284587,
   1223991388, 1224698598, 1225406216, 1226114242, 1226822678, 1227531524, 1228240778, 1228950443, 1229660518, 1230371003,
   1231081898, 1231793204, 1232504922, 1233217050, 1233929590, 1234642541, 1235355905, 1236069681, 1236783869, 1237498469,
   1238213483, 1238928910, 1239644750, 1240361004, 1241077671, 1241794753, 1242512249, 1243230159, 1243948485, 1244667225,
   1245386381, 1246105952, 1246825939, 1247546342, 1248267161, 1248988397, 1249710049, 1250432118, 1251154605, 1251877509,
   1252600831, 1253324570, 1254048728, 1254773304, 1255498299, 1256223713, 1256949546, 1257675798, 1258402470, 1259129562]

/-- E[900]..E[999] (R90). -/
def incrementPiece9 : List Nat :=
  [1259857073, 1260585006, 1261313358, 1262042132, 1262771327, 1263500943, 1264230980, 1264961440, 1265692321, 1266423625,
   1267155351, 1267887500, 1268620072, 1269353068, 1270086487, 1270820329, 1271554596, 1272289287, 1273024402, 1273759942,
   1274495908, 1275232298, 1275969114, 1276706355, 1277444023, 1278182117, 1278920637, 1279659584, 1280398958, 1281138759,
   1281878987, 1282619643, 1283360728, 1284102240, 1284844181, 1285586550, 1286329349, 1287072576, 1287816233, 1288560320,
   1289304837, 1290049783, 1290795161, 1291540969, 1292287207, 1293033877, 1293780979, 1294528512, 1295276477, 1296024874,
   1296773704, 1297522966, 1298272661, 1299022789, 1299773351, 1300524346, 1301275776, 1302027639, 1302779937, 1303532670,
   1304285837, 1305039440, 1305793478, 1306547952, 1307302861, 1308058207, 1308813990, 1309570209, 1310326865, 1311083958,
   1311841488, 1312599456, 1313357863, 1314116707, 1314875990, 1315635711, 1316395872, 1317156472, 1317917511, 1318678990,
   1319440909, 1320203268, 1320966067, 1321729308, 1322492989, 1323257112, 1324021676, 1324786682, 1325552129, 1326318019,
   1327084352, 1327851128, 1328618346, 1329386008, 1330154113, 1330922662, 1331691655, 1332461093, 1333230975, 1334001302]

/-- E[1000]..E[1099] (R90). -/
def incrementPiece10 : List Nat :=
  [1334772074, 1335543291, 1336314954, 1337087062, 1337859617, 1338632619, 1339406066, 1340179961, 1340954303, 1341729093,
   1342504329, 1343280014, 1344056148, 1344832729, 1345609759, 1346387238, 1347165167, 1347943545, 1348722372, 1349501650,
   1350281378, 1351061556, 1351842186, 1352623266, 1353404797, 1354186780, 1354969215, 1355752102, 1356535442, 1357319234,
   1358103478, 1358888176, 1359673328, 1360458933, 1361244992, 1362031505, 1362818472, 1363605894, 1364393772, 1365182104,
   1365970892, 1366760135, 1367549835, 1368339991, 1369130604, 1369921673, 1370713199, 1371505183, 1372297624, 1373090523,
   1373883881, 1374677696, 1375471971, 1376266704, 1377061896, 1377857548, 1378653660, 1379450232, 1380247263, 1381044756,
   1381842709, 1382641123, 1383439999, 1384239336, 1385039135, 1385839396, 1386640119, 1387441306, 1388242955, 1389045067,
   1389847642, 1390650682, 1391454185, 1392258153, 1393062585, 1393867482, 1394672844, 1395478671, 1396284964, 1397091723,
   1397898948, 1398706639, 1399514797, 1400323422, 1401132514, 1401942074, 1402752102, 1403562597, 1404373561, 1405184993,
   1405996894, 1406809264, 1407622104, 1408435413, 1409249193, 1410063442, 1410878162, 1411693352, 1412509014, 1413325147]

/-- E[1100]..E[1199] (R90). -/
def incrementPiece11 : List Nat :=
  [1414141751, 1414958828, 1415776376, 1416594397, 1417412890, 1418231856, 1419051296, 1419871209, 1420691595, 1421512456,
   1422333791, 1423155601, 1423977885, 1424800645, 1425623879, 1426447590, 1427271776, 1428096439, 1428921578, 1429747194,
   1430573287, 1431399857, 1432226905, 1433054431, 1433882434, 1434710917, 1435539878, 1436369318, 1437199237, 1438029635,
   1438860514, 1439691872, 1440523711, 1441356031, 1442188831, 1443022113, 1443855876, 1444690120, 1445524847, 1446360056,
   1447195748, 1448031922, 1448868580, 1449705721, 1450543346, 1451381455, 1452220048, 1453059125, 1453898687, 1454738735,
   1455579268, 1456420286, 1457261790, 1458103781, 1458946258, 1459789222, 1460632673, 1461476611, 1462321037, 1463165951,
   1464011352, 1464857243, 1465703622, 1466550490, 1467397848, 1468245695, 1469094032, 1469942859, 1470792176, 1471641985,
   1472492284, 1473343075, 1474194357, 1475046131, 1475898397, 1476751156, 1477604407, 1478458151, 1479312389, 1480167120,
   1481022345, 1481878064, 1482734278, 1483590986, 1484448189, 1485305888, 1486164082, 1487022772, 1487881958, 1488741641,
   1489601820, 1490462496, 1491323670, 1492185341, 1493047510, 1493910177, 1494773343, 1495637007, 1496501171, 1497365833]

/-- E[1200]..E[1200] (R90). -/
def incrementPiece12 : List Nat :=
  [1498230996]

/-- The thirteen pieces of E, in order. -/
def incrementPieces : List (List Nat) :=
  [incrementPiece0, incrementPiece1, incrementPiece2, incrementPiece3, incrementPiece4,
   incrementPiece5, incrementPiece6, incrementPiece7, incrementPiece8, incrementPiece9,
   incrementPiece10, incrementPiece11, incrementPiece12]

/-- Entry E[k] of the increment table, k in 0..1200 (R90). -/
def incrementEntry (k : Nat) : Nat := (incrementPieces.getD (k / 100) []).getD (k % 100) 0

/-- The interpolated entry e of cent c and tenth of a cent frac (R91). -/
def interpolatedEntry (c frac : Nat) : Nat :=
  incrementEntry c + (incrementEntry (c + 1) - incrementEntry c) * frac / 10

/-- The increment of pitch P: octave, cent and tenth of a cent (R91), then e shifted right by 10 less the octave (R92). -/
def incrementOf (p : Nat) : Nat :=
  let o := p / 12000
  let r := p % 12000
  interpolatedEntry (r / 10) (r % 10) >>> (10 - o)

end Sys2Proof.Machine
end

