-- ==== Sys2Proof/Machine/ImageFormat.lean ====
section
/-!
DEFINITION. The start-up image in the flash (spec 11.5): the checks that end a load in FAULT (R177), the PROGRAMS
section (R178), the clamps at load (R17, R27, R28, R38, R68, R83, R162, R179) and the program blocks (R68, R180).
-/

namespace Sys2Proof.Machine

/-! ### Header and directory -/

/-- A directory entry: section kind, flash address, length. -/
structure DirectoryEntry where
  kind : Nat
  address : Nat
  length : Nat
  deriving DecidableEq, Repr

/-- Directory entry `i`, seven bytes from byte 5 + 7i of the header. -/
def directoryEntry (flash : List Byte) (i : Nat) : DirectoryEntry :=
  let e := bytesFrom flash (5 + 7 * i) 7
  { kind := (byteAt e 0).toNat, address := bigEndian ((e.drop 1).take 3), length := bigEndian ((e.drop 4).take 3) }

/-- The nine directory entries. -/
def imageDirectory (flash : List Byte) : List DirectoryEntry := (List.range 9).map (directoryEntry flash)

/-- Each of the nine section kinds listed once (R177). -/
def directoryWhole (d : List DirectoryEntry) : Bool :=
  [1, 2, 3, 4, 5, 6, 7, 8, 9].all fun k => decide ((d.filter fun e => e.kind == k).length = 1)

/-- The lengths the table of spec 11.5 allows each section kind, whatever the section holds. -/
def sectionLengthAllowed (kind len : Nat) : Bool :=
  match kind with
  | 1 => decide (len = 3)
  | 2 => decide (len = 26)
  | 3 => decide (3 ≤ len ∧ (len - 3) % 9 = 0 ∧ (len - 3) / 9 ≤ 255)
  | 4 => decide (len = 74)
  | 5 => decide (len = 26)
  | 6 => decide (len = 52)
  | 7 => decide (len = 8)
  | 8 => decide (3 ≤ len ∧ (len - 3) % 3 = 0 ∧ (len - 3) / 3 ≤ 255)
  | 9 => decide (3 ≤ len ∧ (len - 3) % 512 = 0 ∧ (len - 3) / 512 ≤ 255)
  | _ => false

/-- The bytes of the section of this kind. -/
def sectionBytes (flash : List Byte) (d : List DirectoryEntry) (kind : Nat) : List Byte :=
  match d.find? fun e => e.kind == kind with
  | some e => bytesFrom flash e.address e.length
  | none => []

/-- The header's checks: identifier, version, CRC, a whole directory, allowed lengths (R177). -/
def headerGood (flash : List Byte) : Bool :=
  let d := imageDirectory flash
  decide (bytesFrom flash 0 5 = [75, 66, 50, 56, 1]) && crcGood (bytesFrom flash 0 70) && directoryWhole d &&
    d.all fun e => sectionLengthAllowed e.kind e.length

/-- The CRC checks of the sections, PROGRAMS apart (R177), and the count bytes of CHART and WAVES, whose section length
must be the one their declared count gives (spec 11.5; DEDUCED, assumption 5). -/
def sectionsGood (flash : List Byte) : Bool :=
  let d := imageDirectory flash
  let chart := sectionBytes flash d 3
  let waves := sectionBytes flash d 9
  ([1, 2, 3, 4, 5, 6, 7, 9].all fun k => crcGood (sectionBytes flash d k)) &&
    decide (chart.length = 3 + 9 * (byteAt chart 0).toNat) && decide (waves.length = 3 + 512 * (byteAt waves 0).toNat)

/-! ### Sections -/

/-- A four-byte key set at byte `i`; keys beyond K23 are loaded without (R17, R38). -/
def keySetAt (bytes : List Byte) (i : Nat) : BitVec 24 :=
  keySet (byteAt bytes i) (byteAt bytes (i + 1)) (byteAt bytes (i + 2))

/-- An unsigned two-byte field at byte `i`. -/
def word16At (bytes : List Byte) (i : Nat) : Nat := word16 (byteAt bytes i) (byteAt bytes (i + 1))

/-- A signed two-byte field at byte `i`. -/
def signed16At (bytes : List Byte) (i : Nat) : Int := signed16 (byteAt bytes i) (byteAt bytes (i + 1))

/-- An octave key code: 0..23 names a key, any other code is unused (R3, R17). -/
def octaveKeyOf (b : Byte) : Option (Fin 24) := if h : b.toNat < 24 then some ⟨b.toNat, h⟩ else none

/-- A chart entry of nine bytes at byte `i`: the pattern cut to the care set, a base note above 127 as 127 (R5, R17). -/
def chartEntryAt (bytes : List Byte) (i : Nat) : ChartEntry :=
  let care := keySetAt bytes i
  { care := care, pattern := keySetAt bytes (i + 4) &&& care, base := min 127 (byteAt bytes (i + 8)).toNat }

/-- The chart: the first 96 of the declared entries (R5, R17). -/
def chartOf (bytes : List Byte) : List ChartEntry :=
  (List.range (min 96 (byteAt bytes 0).toNat)).map fun i => chartEntryAt bytes (1 + 9 * i)

/-- T_off below T_on after the range clamps (R27). -/
def thresholdOff (tOn rawOff : Nat) : Nat :=
  let off := min 4094 rawOff
  if tOn ≤ off then tOn - 1 else off

/-- The watched quantity of a detector definition, or none for an unused quantity code (R38, spec 11.5). -/
def watchAt (bytes : List Byte) (i : Nat) : Option Watch :=
  let low := signed16At bytes (i + 4)
  let high := signed16At bytes (i + 6)
  match (byteAt bytes i).toNat with
  | 1 => some (.breath (clampInt 0 4095 low) (clampInt 0 4095 high))
  | 2 => some (.rise (clampInt (-4095) 4095 low) (clampInt (-4095) 4095 high))
  | 3 => some (.lip (clampInt 0 4095 low) (clampInt 0 4095 high))
  | 4 =>
    let care := keySetAt bytes (i + 4)
    some (.keys care (keySetAt bytes (i + 8) &&& care))
  | _ => none

/-- The action code of a detector definition (R38, spec 11.5). -/
def actionOf (b : Byte) : Option Action :=
  match b.toNat with
  | 1 => some .octaveUp
  | 2 => some .octaveDown
  | 3 => some .harmonyToggle
  | 4 => some .programSwap
  | 5 => some .report
  | _ => none

/-- A detector definition of twelve bytes at byte `i`; an unknown quantity or action code makes it unused, a count of 0
loads as 1 (R38). -/
def detectorAt (bytes : List Byte) (i : Nat) : Option DetectorDef :=
  match watchAt bytes i, actionOf (byteAt bytes (i + 3)) with
  | some w, some a =>
    some { watch := w, negate := byteAt bytes (i + 1) != 0, count := max 1 (byteAt bytes (i + 2)).toNat, action := a }
  | _, _ => none

/-- A join code; an unknown one loads as SEPARATE (R38). -/
def joinOf (b : Byte) : Join :=
  match b.toNat with
  | 1 => .both
  | 2 => .either
  | _ => .separate

/-- A default scale set; an empty one loads as all twelve classes (R179). -/
def defaultScaleOf (s : BitVec 12) : BitVec 12 := if s = 0 then 4095 else s

/-- The program directory: empty where the PROGRAMS section's CRC fails or its count byte differs from what its length
holds; else the first 16 block addresses at most (R178, R179). -/
def programDirectory (bytes : List Byte) : List Nat :=
  let k := (bytes.length - 3) / 3
  if crcGood bytes && decide ((byteAt bytes 0).toNat = k) then
    (List.range (min 16 k)).map fun i => bigEndian (bytesFrom bytes (1 + 3 * i) 3)
  else []

/-- Wave table `t` of the WAVES section, or 256 zeros where the section does not supply it (R162). -/
def waveTable (bytes : List Byte) (t : Nat) : List Int :=
  if t < (byteAt bytes 0).toNat then
    (List.range 256).map fun i => signed16At bytes (1 + 512 * t + 2 * i)
  else List.replicate 256 0

/-- The contents of a flash whose header and sections are good. -/
def imageOf (flash : List Byte) : Image :=
  let d := imageDirectory flash
  let keys := sectionBytes flash d 2
  let breath := sectionBytes flash d 4
  let just := sectionBytes flash d 5
  let gestures := sectionBytes flash d 6
  let master := sectionBytes flash d 7
  let waves := sectionBytes flash d 9
  let tOn := clampNat 1 4095 (word16At breath 0)
  { lineEnable := byteAt (sectionBytes flash d 1) 0 == 1
    keyMask := keySetAt keys 0
    octaveKeys := ⟨octaveKeyOf (byteAt keys 4), octaveKeyOf (byteAt keys 5), octaveKeyOf (byteAt keys 6),
      octaveKeyOf (byteAt keys 7)⟩
    octaveTable := (List.range 16).map fun i => clampInt (-2) 3 (signed8 (byteAt keys (8 + i)))
    chart := chartOf (sectionBytes flash d 3)
    tOn := tOn
    tOff := thresholdOff tOn (word16At breath 2)
    lipCentre := min 4095 (word16At breath 4)
    curve := (List.range 33).map fun i => min 32767 (word16At breath (6 + 2 * i))
    just := (List.range 12).map fun i => clampInt (-500) 500 (signed16At just (2 * i))
    detectorDefs := ⟨detectorAt gestures 0, detectorAt gestures 12, detectorAt gestures 24, detectorAt gestures 36⟩
    join01 := joinOf (byteAt gestures 48)
    join23 := joinOf (byteAt gestures 49)
    masterGain := word16At master 0
    defaultKey := (byteAt master 2).toNat % 12
    defaultScale := defaultScaleOf (scaleSet (byteAt master 3) (byteAt master 4))
    defaultProgram := (byteAt master 5).toNat
    directory := programDirectory (sectionBytes flash d 8)
    waves := (List.range 16).map (waveTable waves) }

/-- The image load's checks: the contents, or none where the load ends in FAULT (R177). -/
def loadImage (flash : List Byte) : Option Image :=
  if headerGood flash && sectionsGood flash then some (imageOf flash) else none

/-- The default program's number: the MASTER section's, or count − 1 where that is not below the count; none when the
count is 0 (R178). -/
def Image.defaultNumber (img : Image) : Option Nat :=
  if img.directory.length = 0 then none
  else if img.defaultProgram < img.directory.length then some img.defaultProgram
  else some (img.directory.length - 1)

/-! ### Program blocks -/

/-- Seven bytes of a rank at byte `i` of a block: level, interval count, four signed intervals. A count above 4 reads
the four; an interval beyond ±24 loads as ±24 (R68, spec 11.5). -/
def rankProgramAt (block : List Byte) (i : Nat) : RankProgram :=
  { level := min 32767 (word16At block i)
    intervals := (List.range (min 4 (byteAt block (i + 2)).toNat)).map fun j =>
      clampInt (-24) 24 (signed8 (byteAt block (i + 3 + j))) }

/-- The contents of a program block after the clamps of R68 (spec 11.5). -/
def programOf (block : List Byte) : Program :=
  { softWave := min 15 (byteAt block 0).toNat
    brightWave := min 15 (byteAt block 1).toNat
    depth := min 32767 (word16At block 2)
    settle := min 15 (byteAt block 4).toNat
    onsetFrames := min 7 (byteAt block 5).toNat
    attack := clampNat 1 32767 (word16At block 6)
    releaseRate := clampNat 1 32767 (word16At block 8)
    portamento := min 2000 (word16At block 10)
    strength := min 16 (byteAt block 12).toNat
    bendGain := (byteAt block 13).toNat
    deadband := min 1023 (word16At block 14)
    rankSet := (byteAt block 16).extractLsb' 0 3
    rankPrograms := ⟨rankProgramAt block 17, rankProgramAt block 24, rankProgramAt block 31⟩
    slew := clampNat 1 50 (byteAt block 38).toNat
    cap := min 32767 (word16At block 39) }

/-- The length of a program block (spec 11.5). -/
def blockLength : Nat := 43

/-- The read of the program block at this address: its contents, or none where its CRC fails. A block that does not lie
within the flash fails its check (R179; DEDUCED, assumption 23). -/
def readProgram (flash : List Byte) (address : Nat) : Option Program :=
  let block := bytesFrom flash address blockLength
  if decide (address + blockLength ≤ flash.length) && crcGood block then some (programOf block) else none

/-- The read of program `n` at the location the directory gives (R180). -/
def Image.readProgram (img : Image) (flash : List Byte) (n : Nat) : Option Program :=
  match img.directory[n]? with
  | some address => Machine.readProgram flash address
  | none => none

end Sys2Proof.Machine
end

