-- ==== Sys2Proof/Machine/Operands.lean ====
section
/-!
DEFINITION. The operands of the commands: a sensor burst (R193, spec 11.1), the good line frame a peer command carries
(R143, R144), the message at the head of the in FIFO (R183).
-/

namespace Sys2Proof.Machine

/-- The fields of a burst with a good check (spec 11.1, R193); none for a bad one: a burst that is not eight bytes, or
whose bytes do not add to 255 modulo 256. -/
def readBurst : List Byte → Option SensorFrame
  | [q, k0, k1, k2, hi, mid, lo, check] =>
    if (q.toNat + k0.toNat + k1.toNat + k2.toNat + hi.toNat + mid.toNat + lo.toNat + check.toNat) % 256 = 255 then
      some { seq := q.toNat, keys := keySet k0 k1 k2, breath := hi.toNat * 16 + mid.toNat / 16,
             lip := mid.toNat % 16 * 256 + lo.toNat }
    else none
  | _ => none

/-- Frames are received in every line state but DISABLED (R142). -/
def State.receives (s : State) : Bool := decide (s.line.state ≠ .disabled)

/-- The good peer frame in these bytes, while the line receives; none for any other bytes, and for a frame bearing the
own number, which is a duplicate (R124). An own frame under way does not bar it (DESIGN CHOICE, assumption 11). -/
def State.peerFrame (s : State) (bytes : List Byte) : Option LineFrame :=
  match verdict bytes with
  | .good f => if s.receives && decide (f.station ≠ s.power.station) then some f else none
  | _ => none

/-- The message at the head of the in FIFO, where the out FIFO has room for all it may place (R183). -/
def State.headMessage (s : State) : Option Message :=
  match s.panel.inFifo with
  | [] => none
  | m :: _ => if (readMessage m).room + s.panel.outFifo.length ≤ Config.fifoLimit then some (readMessage m) else none

/-- A message waits at the head of the in FIFO for out FIFO space (R184). -/
def State.headWaits (s : State) : Bool :=
  match s.panel.inFifo with
  | [] => false
  | m :: _ => decide (Config.fifoLimit < (readMessage m).room + s.panel.outFifo.length)

/-- The in FIFO without its head: a message is removed once it is processed (R183). -/
def dropHead (s : State) : State := { s with panel := { s.panel with inFifo := s.panel.inFifo.tail } }

/-- Place a record at the end of the out FIFO (R184). -/
def place (r : PanelRecord) (s : State) : State :=
  { s with panel := { s.panel with outFifo := s.panel.outFifo ++ [r] } }

end Sys2Proof.Machine
end

