-- ==== Sys2Proof/Machine/Ops.lean ====
section
/-!
DEFINITION. The named operations the commands share: slots and banks (R50 to R53, R67, R71), the pitch of one voice
(R84, R85, R89 to R92), the transmit queue (R145 to R149), NOTE records and releases (R54, R58 to R60), and the Section
Map's entries (R123 to R127).
-/

namespace Sys2Proof.Machine

/-! ### Power-on reset -/

/-- The outcome of a command that power-on reset keeps from being taken (R175): no change while reset is asserted, else
the state `f` gives. A command whose condition does not hold changes nothing either (DESIGN CHOICE, assumption 3). -/
def unlessHeld (s : State) (f : State → State) : Host.Outcome State Fault Refusal :=
  .next (if s.power.resetHeld then s else f s)

/-! ### Image and banks -/

/-- The installed image, in LOADED alone (R176). -/
def State.image? (s : State) : Option Image :=
  match s.loader.image with
  | .loaded img => some img
  | _ => none

/-- The program count as PROGRAM reads it: 0 until the PROGRAMS section is loaded (R69, R74). -/
def State.programCount (s : State) : Nat :=
  match s.image? with
  | some img => img.directory.length
  | none => 0

/-- The state of a bank. -/
def State.bank (s : State) : BankId → BankState
  | .bankA => s.banks.a
  | .bankB => s.banks.b

/-- The state with a bank replaced. -/
def setBank (b : BankId) (x : BankState) (s : State) : State :=
  match b with
  | .bankA => { s with banks := { s.banks with a := x } }
  | .bankB => { s with banks := { s.banks with b := x } }

/-- The other bank. -/
def BankId.other : BankId → BankId
  | .bankA => .bankB
  | .bankB => .bankA

/-- The program a bank holds: its own when READY, the kept one when PENDING (R67). -/
def BankState.held? : BankState → Option Held
  | .ready h => some h
  | .pending _ h => h
  | _ => none

/-- The parameters of the current bank where it is READY; its readers take S, F, G and D as 0 where it is not (R68). -/
def State.currentProgram (s : State) : Option Program :=
  match s.bank s.banks.selector with
  | .ready h => some h.params
  | _ => none

/-- A program of zeros, standing where a voice's bank holds no program. The spec rules the case out (R71, R74); no
statement rests on it (assumption 10). -/
def Program.blank : Program :=
  { softWave := 0, brightWave := 0, depth := 0, settle := 0, onsetFrames := 0, attack := 1, releaseRate := 1,
    portamento := 0, strength := 0, bendGain := 0, deadband := 0, rankSet := 0,
    rankPrograms := ⟨⟨0, []⟩, ⟨0, []⟩, ⟨0, []⟩⟩, slew := 1, cap := 0 }

/-- The program a voice reads: the one its bank holds (R67, R68). -/
def State.programOfBank (s : State) (b : BankId) : Program :=
  match (s.bank b).held? with
  | some h => h.params
  | none => Program.blank

/-! ### Slots -/

/-- A slot. -/
def State.slot (s : State) (t : Fin 8) : Slot := s.slots.get t

/-- The voice in a slot, none where it is FREE. -/
def State.voice (s : State) (t : Fin 8) : Option Voice := (s.slot t).voice

/-- The state with a slot replaced. -/
def setSlot (t : Fin 8) (x : Slot) (s : State) : State := { s with slots := s.slots.set t x }

/-- The state with the voice of a slot replaced; the announced flag belongs to the tag and stays (R53). -/
def setVoice (t : Fin 8) (v : Option Voice) (s : State) : State := setSlot t { s.slot t with voice := v } s

/-- The state with the announced flag of a tag replaced (R61). -/
def setAnnounced (t : Fin 8) (b : Bool) (s : State) : State := setSlot t { s.slot t with announced := b } s

/-- A voice is RELEASING, in either mode. -/
def Voice.releasing (v : Voice) : Bool :=
  match v.state with
  | .releasingNormal => true
  | .releasingWithdraw _ => true
  | _ => false

/-- A voice is PROVISIONAL or SOUNDING. -/
def Voice.active (v : Voice) : Bool := !v.releasing

/-- A voice is SOUNDING. -/
def Voice.sounding (v : Voice) : Bool := decide (v.state = .sounding)

/-- Role as it goes on the line (R54, R57). -/
def Role.onLine : Role → LineRole
  | .lead => .lead
  | .harmony _ => .harmony

/-- The station's lead slot: its LEAD slot that is SOUNDING (R97). -/
def State.leadTag (s : State) : Option (Fin 8) :=
  allEight.find? fun t =>
    match s.voice t with
    | some v => decide (v.role = .lead) && v.sounding
    | none => false

/-- The lead slot's voice. -/
def State.leadVoice (s : State) : Option Voice :=
  match s.leadTag with
  | some t => s.voice t
  | none => none

/-- A bank is referenced by a slot that is not FREE (R50, R71). -/
def State.referenced (s : State) (b : BankId) : Bool :=
  allEight.any fun t =>
    match s.voice t with
    | some v => decide (v.bank = b)
    | none => false

/-- A PENDING bank that no slot references becomes LOADING and its read starts (R71). -/
def loadUnreferenced (b : BankId) (s : State) : State :=
  match s.bank b with
  | .pending n _ =>
    if s.referenced b then s
    else
      let s := setBank b (.loading n) s
      { s with loader := { s.loader with reading := some (.programRead b n) } }
  | _ => s

/-- R71 for both banks, after slots stopped referencing one. -/
def loadPending (s : State) : State := loadUnreferenced .bankB (loadUnreferenced .bankA s)

/-! ### The pitch of one voice -/

/-- The just table of the image (R83). -/
def State.justTable (s : State) : List Int :=
  match s.image? with
  | some img => img.just
  | none => []

/-- The interval class of a note above a root, 0..11 (R84). -/
def intervalClass (note root : Nat) : Nat := (((note : Int) - (root : Int)) % 12).toNat

/-- The just target of a note in a bank: 0 with no adopted root and for class 0, else deviation × s / 16 rounded half away
from zero (R84, R85). -/
def State.justTargetOf (s : State) (note : Nat) (bank : BankId) : Int :=
  match s.pitch.root with
  | none => 0
  | some root =>
    let c := intervalClass note root
    if c = 0 then 0 else divHalfAway (s.justTable.getD c 0 * ((s.programOfBank bank).strength : Int)) 16

/-- The pitch P of a base and a just offset: the four terms added and limited once (R89). -/
def State.composePitch (s : State) (base just : Int) : Nat :=
  (clampInt 0 127999 (base + s.pitch.tuning + just + s.breath.bend)).toNat

/-- A voice with its pitch and increment composed from its own base and just currents (R89 to R92). -/
def State.composed (s : State) (v : Voice) : Voice :=
  let p := s.composePitch v.baseCurrent v.justCurrent
  { v with pitch := p, increment := incrementOf p }

/-! ### Allocation -/

/-- The lowest-numbered FREE slot (R52). -/
def State.freeTag (s : State) : Option (Fin 8) := allEight.find? fun t => decide (s.voice t = none)

/-- The gain current of a slot (spec 04, 4.1). -/
def State.gain (s : State) (t : Fin 8) : Nat := (s.slot t).gainCurrent

/-- One step of the search for the slot to steal: slot `t` is better than the best so far when it is RELEASING at a lower
gain current (R52). -/
def State.quieter (s : State) (best : Option (Fin 8 × Nat)) (t : Fin 8) : Option (Fin 8 × Nat) :=
  match s.voice t with
  | some v =>
    if v.releasing then
      match best with
      | some (b, g) => if s.gain t < g then some (t, s.gain t) else some (b, g)
      | none => some (t, s.gain t)
    else best
  | none => best

/-- The RELEASING slot with the lowest gain current, the lowest-numbered of those (R52). -/
def State.stealTag (s : State) : Option (Fin 8) := (allEight.foldl s.quieter none).map Prod.fst

/-- The slot an allocation takes (R52). -/
def State.allocationTag (s : State) : Option (Fin 8) :=
  match s.freeTag with
  | some t => some t
  | none => s.stealTag

/-- The voice an allocation puts in its slot (R53, R78, R87), on its tuned pitch. -/
def State.newVoice (s : State) (role : Role) (note : Nat) (bank : BankId) (opening : Option Nat) : Voice :=
  let just := s.justTargetOf note bank
  s.composed
    { state := (match role with | .lead => .sounding | .harmony _ => .provisional)
      role := role
      note := note
      bank := bank
      baseCurrent := 1000 * note
      baseTarget := 1000 * note
      justCurrent := just
      justTarget := just
      openingGain := opening
      pitch := 0
      increment := 0 }

/-- A slot as an allocation leaves it: the voice, silent until the next boundary, at phase 0; the announced flag as it stood
(R53, R64, R160). -/
def Slot.start (x : Slot) (v : Voice) : Slot := { x with gainCurrent := 0, gainTarget := 0, phase := 0, voice := some v }

/-- An allocation (R52, R53): the slot taken, and the state after it, a bank whose last reference was stolen going to
LOADING. No slot is taken when none is FREE or RELEASING, which R51 rules out. -/
def allocate (role : Role) (note : Nat) (bank : BankId) (opening : Option Nat) (s : State) : Option (Fin 8) × State :=
  match s.allocationTag with
  | some t => (some t, loadPending (setSlot t ((s.slot t).start (s.newVoice role note bank opening)) s))
  | none => (none, s)

/-! ### The transmit queue -/

/-- The class of a record (R143, R145). -/
def Record.cls : Record → Nat
  | .noteStart _ _ _ _ => 0
  | .noteEnd _ => 0
  | .held _ _ _ _ => 1
  | .claim _ _ _ => 2
  | .roster => 3

/-- A record is a HELD. -/
def Record.isHeld : Record → Bool
  | .held _ _ _ _ => true
  | _ => false

/-- A record is a NOTE record of this tag (R146). -/
def Record.isNote (t : Fin 8) : Record → Bool
  | .noteStart u _ _ _ => decide (u = t)
  | .noteEnd u => decide (u = t)
  | _ => false

/-- A record is a NOTE_START of this tag (R146). -/
def Record.isNoteStart (t : Fin 8) : Record → Bool
  | .noteStart u _ _ _ => decide (u = t)
  | _ => false

/-- A record is the CLAIM of this rank (R147). -/
def Record.isClaim (r : Fin 3) : Record → Bool
  | .claim q _ _ => decide (q = r)
  | _ => false

/-- A record is a ROSTER (R149). -/
def Record.isRoster : Record → Bool
  | .roster => true
  | _ => false

/-- A record as it is admitted: abandon count 0, its frame not under way (R145). -/
def Queued.fresh (r : Record) : Queued := { record := r, abandons := 0, underWay := false }

/-- A record joins the end of its class (R145). -/
def joinClass (x : Queued) : List Queued → List Queued
  | [] => [x]
  | y :: ys => if y.record.cls ≤ x.record.cls then y :: joinClass x ys else x :: y :: ys

/-- The queue without the most recently admitted HELD (R148). -/
def evictHeld : List Queued → List Queued
  | [] => []
  | y :: ys => if y.record.isHeld && !(ys.any fun z => z.record.isHeld) then ys else y :: evictHeld ys

/-- The queue with the first record that `p` accepts replaced in place by a fresh one (R146, R147). -/
def replaceRecord (p : Record → Bool) (r : Record) : List Queued → List Queued
  | [] => []
  | y :: ys => if p y.record then Queued.fresh r :: ys else y :: replaceRecord p r ys

/-- Whether the queue holds a record that `p` accepts. -/
def Line.holds (l : Line) (p : Record → Bool) : Bool := l.queue.any fun y => p y.record

/-- The queue without the records that `p` accepts; a record whose frame is under way leaves the queue all the same
(R151). -/
def Line.remove (l : Line) (p : Record → Bool) : Line := { l with queue := l.queue.filter fun y => !p y.record }

/-- A non-HELD record joins the queue, a HELD giving way when the queue is full (R148). -/
def Line.join (l : Line) (r : Record) : Line :=
  if l.queue.length < Config.queueLimit then { l with queue := joinClass (Queued.fresh r) l.queue }
  else
    { l with queue := joinClass (Queued.fresh r) (evictHeld l.queue), heldDropped := countUp l.heldDropped }

/-- A record replaces the one `p` accepts in place, or joins the queue where there is none (R146, R147). -/
def Line.replaceOrJoin (l : Line) (p : Record → Bool) (r : Record) : Line :=
  if l.holds p then { l with queue := replaceRecord p r l.queue } else l.join r

/-- Admission of a record, which happens in ACTIVE alone (R145 to R149). -/
def Line.enqueue (l : Line) (r : Record) : Line :=
  if l.state = .active then
    match r with
    | .noteStart t _ _ _ => l.replaceOrJoin (Record.isNote t) r
    | .noteEnd t => l.replaceOrJoin (Record.isNote t) r
    | .claim q _ _ => l.replaceOrJoin (Record.isClaim q) r
    | .held _ _ _ _ =>
      if l.queue.length < Config.queueLimit then { l with queue := joinClass (Queued.fresh r) l.queue }
      else { l with heldDropped := countUp l.heldDropped }
    | .roster =>
      let l := { l with rosterTimer := none }
      if l.holds Record.isRoster then l else l.join r
  else l

/-- Admission, on the whole state. -/
def enqueue (r : Record) (s : State) : State := { s with line := s.line.enqueue r }

/-- Removal by the owner, on the whole state (R146, R147). -/
def removeRecords (p : Record → Bool) (s : State) : State := { s with line := s.line.remove p }

/-! ### NOTE records and releases -/

/-- A NOTE_START for the voice in a slot, with the level class as it stands (R54, R56, R57). -/
def queueNoteStart (t : Fin 8) (s : State) : State :=
  match s.voice t with
  | some v => enqueue (.noteStart t v.note v.role.onLine s.breath.levelClass) s
  | none => s

/-- The frame under way would announce this tag (R60). -/
def Line.announces (l : Line) (t : Fin 8) : Bool :=
  match l.underWay with
  | some (.noteStart u _ _ _) => decide (u = t)
  | some (.roster es) => es.any fun e => decide (e.tag = t)
  | _ => false

/-- The NOTE_END placement of a slot entering RELEASING (R60). -/
def placeNoteEnd (t : Fin 8) (s : State) : State :=
  let s := removeRecords (Record.isNoteStart t) s
  if (s.slot t).announced || s.line.announces t then enqueue (.noteEnd t) s else s

/-- A PROVISIONAL or SOUNDING slot becomes RELEASING in the given mode, with its NOTE_END placement (R58 to R60); any
other slot is left as it is. -/
def releaseSlot (mode : VoiceState) (t : Fin 8) (s : State) : State :=
  match s.voice t with
  | some v => if v.active then placeNoteEnd t (setVoice t (some { v with state := mode }) s) else s
  | none => s

/-- Every PROVISIONAL or SOUNDING slot is released in NORMAL mode, in slot order (R59, R62). -/
def releaseSlots (s : State) : State := allEight.foldl (fun s t => releaseSlot .releasingNormal t s) s

/-! ### The Section Map -/

/-- The place of an entry in station and tag order (R123). -/
def MapEntry.key (e : MapEntry) : Nat := 8 * e.station.val + e.tag.val

/-- An entry is inserted at its place, or replaces the one of its key (R123, R125). -/
def insertEntry (e : MapEntry) : List MapEntry → List MapEntry
  | [] => [e]
  | x :: xs =>
    if e.key < x.key then e :: x :: xs
    else if e.key = x.key then e :: xs
    else x :: insertEntry e xs

/-- The entries without the one of this key (R126). -/
def removeEntry (k : Nat) (es : List MapEntry) : List MapEntry := es.filter fun e => decide (e.key ≠ k)

/-- The entries without those of a station (R122, R127). -/
def removeStation (st : Fin 8) (es : List MapEntry) : List MapEntry := es.filter fun e => decide (e.station ≠ st)

/-- The map entry of a ROSTER entry. -/
def RosterEntry.entry (st : Fin 8) (e : RosterEntry) : MapEntry :=
  { station := st, tag := e.tag, note := e.note, role := e.role, levelClass := e.levelClass }

/-- The replacement of a station's entries by those a ROSTER lists, the last listing of a tag standing (R127). -/
def replaceStation (st : Fin 8) (listed : List RosterEntry) (es : List MapEntry) : List MapEntry :=
  listed.foldl (fun acc e => insertEntry (e.entry st) acc) (removeStation st es)

/-- The state with the map's entries replaced. -/
def setEntries (es : List MapEntry) (s : State) : State := { s with map := { s.map with entries := es } }

/-- The state with one station record replaced. -/
def setStation (st : Fin 8) (x : StationRecord) (s : State) : State :=
  { s with map := { s.map with stations := s.map.stations.set st x } }

/-- A valid frame from a peer: present, age 0 (R121). -/
def refreshStation (st : Fin 8) (s : State) : State := setStation st { present := true, age := 0 } s

/-- Some entry holds this note, whatever its role or class (R101, R108). -/
def State.mapHolds (s : State) (note : Nat) : Bool := s.map.entries.any fun e => decide (e.note = note)

end Sys2Proof.Machine
end

