-- ==== Sys2Proof/Machine/Ranks.lean ====
section
/-!
DEFINITION. The Harmony Ranks (spec 06): enables, claim numbers, the plan, withdrawals and yields, the abandoning of
claims, the claim timers, and the settings RANKS and KEY as they are taken.
-/

namespace Sys2Proof.Machine

/-- A rank's record. -/
def State.rank (s : State) (r : Fin 3) : Rank := s.harmony.ranks.get r

/-- The state with a rank's record replaced. -/
def setRank (r : Fin 3) (x : Rank) (s : State) : State :=
  { s with harmony := { s.harmony with ranks := s.harmony.ranks.set r x } }

/-- A rank is enabled (R97): the master enable, the live RANKS set and, while a lead slot is SOUNDING, the rank set of
the program in its bank. -/
def State.enabled (s : State) (r : Fin 3) : Bool :=
  s.harmony.master && s.harmony.liveRanks.getLsbD r.val &&
    match s.leadVoice with
    | some v => (s.programOfBank v.bank).rankSet.getLsbD r.val
    | none => true

/-- A claim is outstanding while its rank is QUEUED or WINDOW (R95). -/
def Rank.outstanding (k : Rank) : Bool := decide (k.stage = .queued) || decide (k.stage = .window)

/-- The numbers of the other ranks' outstanding claims (R99). -/
def State.usedNumbers (s : State) (r : Fin 3) : List Byte :=
  allRanks.filterMap fun q =>
    if q = r then none
    else if (s.rank q).outstanding then (s.rank q).claim.map Claim.number else none

/-- The counter advanced past the used numbers it meets, `fuel` of them at most (R99). -/
def advancePast (used : List Byte) : Nat → Byte → Byte
  | 0, c => c
  | fuel + 1, c => if c ∈ used then advancePast used fuel (c + 1) else c

/-- The number a new claim of this rank takes (R99). At most two other claims are outstanding. -/
def State.claimNumber (s : State) (r : Fin 3) : Byte := advancePast (s.usedNumbers r) 3 s.harmony.counter

/-- Test 1 of R101: the pitch class relative to the live key is in the live scale set. -/
def State.inScale (s : State) (note : Nat) : Bool :=
  s.harmony.scale.getLsbD (((note : Int) - (s.harmony.key : Int)) % 12).toNat

/-- Test 3 of R101: no slot that is neither FREE nor RELEASING holds the note with a role other than this rank. -/
def State.heldLocally (s : State) (r : Fin 3) (note : Nat) : Bool :=
  allEight.any fun t =>
    match s.voice t with
    | some v => v.active && decide (v.note = note) && decide (v.role ≠ .harmony r)
    | none => false

/-- A candidate passes the four tests of R101. -/
def State.eligible (s : State) (r : Fin 3) (note : Nat) : Bool :=
  s.inScale note && !s.mapHolds note && !s.heldLocally r note && !decide (note ∈ (s.rank r).refused)

/-- The walk over the intervals from position `pos` on: the position and note of the first eligible candidate (R101). -/
def State.walk (s : State) (r : Fin 3) (lead : Nat) : List Int → Nat → Option (Nat × Nat)
  | [], _ => none
  | i :: rest, pos =>
    if i ≠ 0 ∧ s.eligible r (fold ((lead : Int) + i)) then some (pos, fold ((lead : Int) + i))
    else s.walk r lead rest (pos + 1)

/-- A rank's slot while it holds a PROVISIONAL or SOUNDING voice (R95). -/
def State.rankTag (s : State) (r : Fin 3) : Option (Fin 8) :=
  match (s.rank r).slot with
  | some t =>
    match s.voice t with
    | some v => if v.active then some t else none
    | none => none
  | none => none

/-- The withdraw request: the rank's slot becomes RELEASING in WITHDRAW mode with its NOTE_END placement, and the rank
names no slot any more (R58, R95). -/
def withdraw (r : Fin 3) (s : State) : State :=
  let s :=
    match s.rankTag r with
    | some t => releaseSlot (.releasingWithdraw none) t s
    | none => s
  setRank r { s.rank r with slot := none } s

/-- A walk that finds nothing: EXHAUSTED, claim absent, a slot still held is withdrawn (R103). -/
def exhaust (r : Fin 3) (s : State) : State :=
  let s := withdraw r s
  setRank r { s.rank r with stage := .exhausted, claim := none, localDue := false } s

/-- The retarget request: the slot becomes PROVISIONAL on the new note, gain and base current kept (R57). -/
def retarget (t : Fin 8) (note : Nat) (s : State) : State :=
  match s.voice t with
  | some v => setVoice t (some { v with state := .provisional, note := note, baseTarget := 1000 * note }) s
  | none => s

/-- The slot request of a claim: the rank's own slot retargeted at a lead-note change, else a new slot (R100, R102). -/
def requestSlot (r : Fin 3) (note : Nat) (bank : BankId) (keep : Bool) (s : State) : Option (Fin 8) × State :=
  match (if keep then s.rankTag r else none) with
  | some t => (some t, retarget t note s)
  | none => allocate (.harmony r) note bank none s

/-- A claim on an eligible candidate (R99, R102). -/
def makeClaim (r : Fin 3) (pos note : Nat) (bank : BankId) (keep : Bool) (s : State) : State :=
  let number := s.claimNumber r
  let s := { s with harmony := { s.harmony with counter := number + 1 } }
  let (tag, s) := requestSlot r note bank keep s
  let active := decide (s.line.state = .active)
  let s := setRank r
    { s.rank r with
      stage := if active then .queued else .localPending
      claim := some { number := number, note := note }
      position := pos
      slot := tag
      queuedAge := 0
      localDue := false } s
  if active then enqueue (.claim r number note) s else s

/-- A plan of a rank from position `start` (R100 to R103). It runs with a SOUNDING lead slot alone. -/
def plan (r : Fin 3) (start : Nat) (keep : Bool) (s : State) : State :=
  match s.leadVoice with
  | none => s
  | some lead =>
    let intervals := ((s.programOfBank lead.bank).rankPrograms.get r).intervals
    match s.walk r lead.note (intervals.drop start) start with
    | none => exhaust r s
    | some (pos, note) => makeClaim r pos note lead.bank keep s

/-- The claim note joins the refused list unless it holds that note or three notes already (R109, step 3). -/
def refuse (note : Nat) (refused : List Nat) : List Nat :=
  if note ∈ refused ∨ Config.refusedLimit ≤ refused.length then refused else refused ++ [note]

/-- Steps 1 and 2 of a yield, which a disable yield shares: the slot withdrawn, a queued CLAIM removed, the number
retired; the rank is IDLE until a plan says otherwise (R98, R109). -/
def giveUp (r : Fin 3) (s : State) : State :=
  let s := removeRecords (Record.isClaim r) (withdraw r s)
  setRank r { s.rank r with stage := .idle, claim := none, localDue := false } s

/-- A yield of a rank from its claim note (R109); a rank that holds no claim has none to give up. -/
def yieldRank (r : Fin 3) (s : State) : State :=
  match (s.rank r).claim with
  | none => s
  | some c =>
    let next := (s.rank r).position + 1
    let s := giveUp r s
    let s := setRank r { s.rank r with refused := refuse c.note (s.rank r).refused } s
    plan r next false s

/-- A disable yield: it ends in IDLE, and the refused list and the position are kept (R98). -/
def disableYield (r : Fin 3) (s : State) : State := giveUp r s

/-- One rank after a change of enables, given its enable before and after (R98). -/
def enableChanged (r : Fin 3) (before after : Bool) (s : State) : State :=
  if before && !after then disableYield r s
  else if !before && after && decide (s.leadTag ≠ none) then plan r (s.rank r).position false s
  else s

/-- A change `f` of a setting that enters the enables, and what it does to the ranks in rank order (R98). -/
def changeEnables (f : State → State) (s : State) : State :=
  let s' := f s
  allRanks.foldl (fun acc r => enableChanged r (s.enabled r) (s'.enabled r) acc) s'

/-- Every enabled rank plans from position 0, in rank order (R100). -/
def planAll (keep : Bool) (s : State) : State :=
  allRanks.foldl (fun s r => if s.enabled r then plan r 0 keep s else s) s

/-- A rank's claim abandoned at a lead-note change, its slot kept for a retarget (R116). -/
def abandonClaim (r : Fin 3) (s : State) : State :=
  let s := removeRecords (Record.isClaim r) s
  setRank r { s.rank r with stage := .idle, claim := none, position := 0, refused := [], localDue := false } s

/-- A rank at a release or at ALL_OFF: IDLE with nothing kept (R117). -/
def idleRank (r : Fin 3) (s : State) : State :=
  let s := removeRecords (Record.isClaim r) s
  setRank r
    { s.rank r with stage := .idle, claim := none, position := 0, refused := [], slot := none, localDue := false } s

/-- The release of every PROVISIONAL or SOUNDING slot with every rank to IDLE, slots first (R59, R62, R117; DEDUCED,
assumption 18). -/
def releaseAll (s : State) : State := allRanks.foldl (fun s r => idleRank r s) (releaseSlots s)

/-- A QUEUED rank becomes LOCAL_PENDING; the next boundary decides it (R105, R106). -/
def makeLocal (r : Fin 3) (s : State) : State :=
  if (s.rank r).stage = .queued then setRank r { s.rank r with stage := .localPending, localDue := false } s else s

/-- The confirmation of a claim: the slot SOUNDING, a NOTE_START queued in ACTIVE, the number kept (R57, R107). -/
def confirm (r : Fin 3) (s : State) : State :=
  let s := setRank r { s.rank r with stage := .sounding, localDue := false } s
  match s.rankTag r with
  | some t =>
    match s.voice t with
    | some v => queueNoteStart t (setVoice t (some { v with state := .sounding }) s)
    | none => s
  | none => s

/-- STALE_CLAIM: the queued age of a QUEUED rank has reached 10 (R105). -/
def staleClaim (r : Fin 3) (s : State) : State :=
  if (s.rank r).stage = .queued ∧ Config.staleAge ≤ (s.rank r).queuedAge then
    makeLocal r (removeRecords (Record.isClaim r) s)
  else s

/-- CLAIM_CONFIRM: the window age of a WINDOW rank has reached 4 (R107). The confirmation follows the gains of its boundary, which
still hold the voice to the cap, and the pitch evaluation (DESIGN CHOICE, assumption 7). -/
def claimConfirm (r : Fin 3) (s : State) : State :=
  if (s.rank r).stage = .window ∧ Config.windowAge ≤ (s.rank r).windowAge then confirm r s else s

/-- LOCAL_RESOLUTION of a LOCAL_PENDING rank that has met a boundary, against the map (R108). A LOCAL_PENDING rank always
holds a claim (R95); one that held none would have nothing to resolve. The resolution follows the gains and the pitch evaluation of
its boundary (DESIGN CHOICE, assumption 7). -/
def localResolution (r : Fin 3) (s : State) : State :=
  if (s.rank r).stage = .localPending ∧ (s.rank r).localDue then
    match (s.rank r).claim with
    | some c => if s.mapHolds c.note then yieldRank r s else confirm r s
    | none => setRank r { s.rank r with localDue := false } s
  else s

/-- STALE_CLAIM (R105). -/
def execStaleClaim (r : Fin 3) (s : State) : Host.Outcome State Fault Refusal := unlessHeld s (staleClaim r)

/-- CLAIM_CONFIRM (R107). -/
def execClaimConfirm (r : Fin 3) (s : State) : Host.Outcome State Fault Refusal := unlessHeld s (claimConfirm r)

/-- The waiting RANKS set is taken once it has met a boundary (R97, R98, R185). -/
def takeRanks (s : State) : State :=
  if s.panel.ranksDue then
    let s' := { s with panel := { s.panel with waitRanks := none, ranksDue := false } }
    match s.panel.waitRanks with
    | some set => changeEnables (fun s => { s with harmony := { s.harmony with liveRanks := set } }) s'
    | none => s'
  else s

/-- The waiting key and scale set are taken together once they have met a boundary (R185). -/
def takeKey (s : State) : State :=
  if s.panel.keyDue then
    let s' := { s with panel := { s.panel with waitKey := none, keyDue := false } }
    match s.panel.waitKey with
    | some (k, scale) => { s' with harmony := { s.harmony with key := k, scale := scale } }
    | none => s'
  else s

/-- KEY_TAKEN (R118, R185). -/
def execKeyTaken (s : State) : Host.Outcome State Fault Refusal := unlessHeld s takeKey

/-- HARMONY_TOGGLE (R46, R96, R98). -/
def toggleHarmony (s : State) : State :=
  changeEnables (fun s => { s with harmony := { s.harmony with master := !s.harmony.master } }) s

end Sys2Proof.Machine
end

