-- ==== Sys2Proof/Machine/Notes.lean ====
section
/-!
DEFINITION. The lead note: its computation (R12), the lead-note change and the legato it makes (R13, R56, R116), the lead
start (R32, R54, R55), the release (R33, R59), and the settings TRANSPOSE and TUNING as they are taken.
-/

namespace Sys2Proof.Machine

/-- The lead note of the taken fingering, the octave shift and the live transpose (R12). -/
def Resolver.computeLead (r : Resolver) : Nat := fold (r.taken + 12 * r.octaveShift + r.transpose)

/-- A legato change of the lead slot: the new note, the base target, a NOTE_START in ACTIVE (R56). -/
def legato (t : Fin 8) (s : State) : State :=
  match s.voice t with
  | some v =>
    queueNoteStart t
      (setVoice t (some { v with note := s.resolver.leadNote, baseTarget := 1000 * s.resolver.leadNote }) s)
  | none => s

/-- The ranks at a lead-note change: every claim abandoned, then each enabled rank plans from position 0 (R116). -/
def replanAll (s : State) : State := planAll true (allRanks.foldl (fun s r => abandonClaim r s) s)

/-- The delivery of a lead-note change to the Voice Table and the Harmony Ranks (R13): it moves them while the articulation
is SOUNDING with a SOUNDING lead slot, and does nothing in any other case (R56, R116). The Voice Table acts first (DEDUCED,
assumption 18). -/
def deliverLeadChange (s : State) : State :=
  if s.breath.articulation = .sounding then
    match s.leadTag with
    | some t => replanAll (legato t s)
    | none => s
  else s

/-- The recomputation of the lead note; the same note is no change and is not delivered (R12). -/
def recomputeLead (s : State) : State :=
  let n := s.resolver.computeLead
  if n = s.resolver.leadNote then s
  else deliverLeadChange { s with resolver := { s.resolver with leadNote := n } }

/-- The lead start: with a READY current bank a LEAD slot is allocated on the lead note with the onset peak as its opening
gain, its NOTE_START is queued, and each enabled rank plans; otherwise nothing (R32, R54, R55, R100). -/
def leadStart (s : State) : State :=
  match s.currentProgram with
  | none => s
  | some _ =>
    match allocate .lead s.resolver.leadNote s.banks.selector (some s.breath.onsetPeak) s with
    | (some t, s) => planAll false (queueNoteStart t s)
    | (none, s) => s

/-- The end of a sounding note: the articulation SILENT and the release delivered (R33, R59, R117). -/
def endNote (s : State) : State := releaseAll { s with breath := { s.breath with articulation := .silent } }

/-- The recomputation a taken transpose causes: none while no image is installed, when the lead note stays as the reset or the
RELOAD left it until the next successful load (R16; DEDUCED, assumption 26). -/
def recomputeInstalled (s : State) : State :=
  match s.image? with
  | some _ => recomputeLead s
  | none => s

/-- The waiting transpose is taken once it has met a boundary (R11, R12, R185). -/
def takeTranspose (s : State) : State :=
  if s.panel.transposeDue then
    let s' := { s with panel := { s.panel with waitTranspose := none, transposeDue := false } }
    match s.panel.waitTranspose with
    | some v => recomputeInstalled { s' with resolver := { s.resolver with transpose := v } }
    | none => s'
  else s

/-- The waiting tuning is taken whole once it has met a boundary (R88, R185). -/
def takeTuning (s : State) : State :=
  if s.panel.tuningDue then
    let s' := { s with panel := { s.panel with waitTuning := none, tuningDue := false } }
    match s.panel.waitTuning with
    | some v => { s' with pitch := { s.pitch with tuning := v } }
    | none => s'
  else s

end Sys2Proof.Machine
end

