-- ==== Sys2Proof/Machine/Sensing.lean ====
section
/-!
DEFINITION. The Sensor Port receiver, the Note Resolver, the Breath Shaper and the Gesture Detectors on one frame
(spec 01, 02, 03), with the steps a frame brings about: BASELINE_CAPTURE_COMPLETE, DETECTOR_FIRE, ONSET_END; and
SENSOR_LOST.
-/

namespace Sys2Proof.Machine

/-! ### Note Resolver -/

/-- A key is down in a key set. -/
def keyDown (keys : BitVec 24) (k : Fin 24) : Bool := keys.getLsbD k.val

/-- The weight an octave key position adds to the octave index (R3). -/
def octaveWeight (keys : BitVec 24) (key : Option (Fin 24)) (w : Nat) : Nat :=
  match key with
  | some k => if keyDown keys k then w else 0
  | none => 0

/-- The octave index of a masked key set, 0..15 (R3). -/
def Image.octaveIndex (img : Image) (keys : BitVec 24) : Nat :=
  octaveWeight keys img.octaveKeys.e0 1 + octaveWeight keys img.octaveKeys.e1 2 +
    octaveWeight keys img.octaveKeys.e2 4 + octaveWeight keys img.octaveKeys.e3 8

/-- The key bit of an octave key position. -/
def octaveKeyBit (key : Option (Fin 24)) : BitVec 24 :=
  match key with
  | some k => BitVec.ofNat 24 (2 ^ k.val)
  | none => 0

/-- The keys named as octave keys. -/
def Image.octaveKeySet (img : Image) : BitVec 24 :=
  octaveKeyBit img.octaveKeys.e0 ||| octaveKeyBit img.octaveKeys.e1 ||| octaveKeyBit img.octaveKeys.e2 |||
    octaveKeyBit img.octaveKeys.e3

/-- The masked key set (R2). -/
def Image.maskedKeys (img : Image) (keys : BitVec 24) : BitVec 24 := keys &&& ~~~img.keyMask

/-- The chart key set: the masked key set with every octave key up (R4). -/
def Image.chartKeys (img : Image) (masked : BitVec 24) : BitVec 24 := masked &&& ~~~img.octaveKeySet

/-- A chart entry matches a chart key set (R5). -/
def ChartEntry.hits (e : ChartEntry) (keys : BitVec 24) : Bool := keys &&& e.care == e.pattern

/-- The candidate of a masked key set: the first match's base note moved by the octave value, or UNRESOLVED (R5). -/
def Image.candidate (img : Image) (masked : BitVec 24) : Candidate :=
  match img.chart.find? fun e => e.hits (img.chartKeys masked) with
  | some e => .note ((e.base : Int) + 12 * img.octaveTable.getD (img.octaveIndex masked) 0)
  | none => .unresolved

/-- The settle count S of the current bank, 0 where it is not READY (R8). -/
def State.settleFrames (s : State) : Nat :=
  match s.currentProgram with
  | some p => p.settle
  | none => 0

/-- The take of a candidate: a resolved one that differs becomes the taken fingering, and the lead note is recomputed
(R8, R9, R12). -/
def takeCandidate (c : Candidate) (s : State) : State :=
  match c with
  | .unresolved => s
  | .note n =>
    if n = s.resolver.taken then s else recomputeLead { s with resolver := { s.resolver with taken := n } }

/-- The resolver's state after masking, chart match, count and stability update (R2 to R7). -/
def Resolver.frame (r : Resolver) (img : Image) (keys : BitVec 24) : Resolver :=
  let masked := img.maskedKeys keys
  let c := img.candidate masked
  { r with
    keySet := masked
    previous := some c
    stability := if r.previous = some c then min 15 (r.stability + 1) else 0
    unresolvedFrames := if c = .unresolved then countUp r.unresolvedFrames else r.unresolvedFrames }

/-- The resolver takes a frame: R2 to R7, then the take test of R8. -/
def resolveFrame (img : Image) (keys : BitVec 24) (s : State) : State :=
  let s := { s with resolver := s.resolver.frame img keys }
  match s.resolver.previous with
  | some c => if s.settleFrames ≤ s.resolver.stability then takeCandidate c s else s
  | none => s

/-! ### Breath Shaper -/

/-- The level of a net breath on the breath curve (R28). -/
def curveLevel (curve : List Nat) (n : Nat) : Nat :=
  let i := n / 128
  let c0 : Int := curve.getD i 0
  let c1 : Int := curve.getD (i + 1) 0
  (c0 + ((c1 - c0) * ((n % 128 : Nat) : Int)).tdiv 128).toNat

/-- The level class (R29). -/
def levelClassOf (level : Nat) : Nat :=
  if level ≤ 4095 then 0 else if level ≤ 12287 then 1 else if level ≤ 24575 then 2 else 3

/-- Bend gain and deadband of the current bank, 0 where it is not READY (R35, R68). -/
def State.bendParameters (s : State) : Nat × Nat :=
  match s.currentProgram with
  | some p => (p.bendGain, p.deadband)
  | none => (0, 0)

/-- The bend of a lip sample (R35). -/
def bendOf (lip centre gain dead : Nat) : Int :=
  let d : Int := (lip : Int) - centre
  if d.natAbs ≤ dead then 0
  else
    let m : Int := ((d.natAbs - dead) * gain / 64 : Nat)
    clampInt (-2000) 2000 (if d < 0 then -m else m)

/-- The onset frames F of the current bank, 0 where it is not READY (R31, R68). -/
def State.onsetFrames (s : State) : Nat :=
  match s.currentProgram with
  | some p => p.onsetFrames
  | none => 0

/-- The quantities of a frame evaluated: net breath, rise, level, class and bend (R26, R28, R29, R35). -/
def Breath.measure (b : Breath) (img : Image) (z breath lip gain dead : Nat) : Breath :=
  let n := min 4095 (breath - z)
  let level := curveLevel img.curve n
  { b with
    net := n
    rise := (n : Int) - b.previousNet
    previousNet := n
    level := level
    levelClass := levelClassOf level
    bend := bendOf lip img.lipCentre gain dead }

/-- The articulation on a frame evaluated in SILENT: a crossing of T_on begins the onset (R30). With F = 0 the onset ends
on the same frame. -/
def Breath.fromSilent (b : Breath) (img : Image) (f : Nat) : Breath :=
  if img.tOn ≤ b.net then
    { b with articulation := .onset, onsetCounter := 0, onsetPeak := b.level, onsetEnding := decide (f = 0) }
  else b

/-- The articulation on a frame evaluated in ONSET: abandoned below T_off, else counted, ending when the counter reaches F
(R31). -/
def Breath.fromOnset (b : Breath) (img : Image) (f : Nat) : Breath :=
  if b.net < img.tOff then { b with articulation := .silent, onsetEnding := false }
  else
    { b with onsetCounter := b.onsetCounter + 1, onsetPeak := max b.onsetPeak b.level,
             onsetEnding := decide (f ≤ b.onsetCounter + 1) }

/-- The Breath Shaper evaluates a frame (R26 to R35). -/
def evaluateBreath (img : Image) (z : Nat) (frame : SensorFrame) (s : State) : State :=
  let (gain, dead) := s.bendParameters
  let f := s.onsetFrames
  let b := s.breath.measure img z frame.breath frame.lip gain dead
  match b.articulation with
  | .silent => { s with breath := b.fromSilent img f }
  | .onset => { s with breath := b.fromOnset img f }
  | .sounding => if b.net < img.tOff then endNote { s with breath := b } else { s with breath := b }

/-- The Breath Shaper takes a frame: during baseline capture it adds B to the capture and does nothing further (R24), after
it the frame is evaluated (R23). -/
def breatheFrame (img : Image) (frame : SensorFrame) (s : State) : State :=
  match s.breath.baseline with
  | some z => evaluateBreath img z frame s
  | none =>
    if s.breath.captureCount < Config.captureFrames then
      { s with breath := { s.breath with captureCount := s.breath.captureCount + 1,
                                         captureSum := s.breath.captureSum + frame.breath } }
    else s

/-- BASELINE_CAPTURE_COMPLETE: the count has reached 16, and Z becomes the floor of the mean, limited to 1023 with
BASELINE_HIGH (R24, R25). The previous net breath becomes 0 (R26). -/
def captureComplete (s : State) : State :=
  match s.breath.baseline with
  | some _ => s
  | none =>
    if Config.captureFrames ≤ s.breath.captureCount then
      let mean := s.breath.captureSum / 16
      let s := { s with breath := { s.breath with baseline := some (min Config.baselineMax mean), previousNet := 0 } }
      if Config.baselineMax < mean then raise .baselineHigh s else s
    else s

/-- BASELINE_CAPTURE_COMPLETE. -/
def execBaselineCaptureComplete (s : State) : Host.Outcome State Fault Refusal := unlessHeld s captureComplete

/-! ### Gesture Detectors -/

/-- What the detectors see of one frame (R37). -/
structure Sight where
  net : Nat
  rise : Int
  lip : Nat
  keys : BitVec 24
  deriving DecidableEq, Repr

/-- The raw condition of a detector (R39, R40). -/
def Watch.raw (w : Watch) (v : Sight) : Bool :=
  match w with
  | .breath low high => decide (low ≤ (v.net : Int)) && decide ((v.net : Int) ≤ high)
  | .rise low high => decide (low ≤ v.rise) && decide (v.rise ≤ high)
  | .lip low high => decide (low ≤ (v.lip : Int)) && decide ((v.lip : Int) ≤ high)
  | .keys care pattern => v.keys &&& care == pattern

/-- The condition of a detector after its negate flag; false for an unused one (R39 to R41). -/
def conditionOf (d : Option DetectorDef) (v : Sight) : Bool :=
  match d with
  | some d => d.watch.raw v != d.negate
  | none => false

/-- The join of the pair a detector belongs to (R41). -/
def Image.joinOfPair (img : Image) (d : Fin 4) : Join := if d.val < 2 then img.join01 else img.join23

/-- The upper member of a pair. -/
def upperOf (d : Fin 4) : Fin 4 := if d.val < 2 then 1 else 3

/-- A detector is the lower member of its pair. -/
def lowerMember (d : Fin 4) : Bool := decide (d = 0 ∨ d = 2)

/-- The definition an acting detector acts by: none for an unused detector and for the upper member of a joined pair
(R41, R42). -/
def Image.acting (img : Image) (d : Fin 4) : Option DetectorDef :=
  match img.joinOfPair d with
  | .separate => img.detectorDefs.get d
  | _ => if lowerMember d then img.detectorDefs.get d else none

/-- The condition of an acting detector, its pair's join applied (R41). -/
def Image.actingCondition (img : Image) (d : Fin 4) (v : Sight) : Bool :=
  let own := conditionOf (img.detectorDefs.get d) v
  match img.joinOfPair d with
  | .separate => own
  | .both => own && conditionOf (img.detectorDefs.get (upperOf d)) v
  | .either => own || conditionOf (img.detectorDefs.get (upperOf d)) v

/-- The hit count and flag of a detector after a frame, before it fires (R43): a hit count that reaches N is followed by
the DETECTOR_FIRE that takes the flag to unarmed. -/
def Detector.frame (k : Detector) (cond : Bool) (n : Nat) : Detector :=
  if cond then (if k.armed then { k with hits := min n (k.hits + 1) } else k)
  else { hits := 0, armed := true }

/-- One detector on a frame; one that does not act is left as it is (R38, R42). -/
def Image.detectorFrame (img : Image) (v : Sight) (ks : Four Detector) (d : Fin 4) : Four Detector :=
  match img.acting d with
  | some df => ks.set d ((ks.get d).frame (img.actingCondition d v) df.count)
  | none => ks

/-- The detectors evaluate a frame: every condition is tested before any action is taken (R44). -/
def detectFrame (img : Image) (v : Sight) (s : State) : State :=
  { s with detectors := allDetectors.foldl (img.detectorFrame v) s.detectors }

/-- A detector has reached its count and has not fired yet: its definition and action. -/
def State.firing (s : State) (d : Fin 4) : Option Action :=
  match s.image? with
  | some img =>
    match img.acting d with
    | some df =>
      if (s.detectors.get d).armed && decide (df.count ≤ (s.detectors.get d).hits) then some df.action else none
    | none => none
  | none => none

/-- The octave shift after OCTAVE_UP (R11). -/
def octaveUp (shift : Int) : Int := if shift = 1 then 0 else 1

/-- The octave shift after OCTAVE_DOWN (R11). -/
def octaveDown (shift : Int) : Int := if shift = -1 then 0 else -1

/-- A change of the octave shift with the recomputation it causes (R11, R12, R45). -/
def shiftOctave (f : Int → Int) (s : State) : State :=
  recomputeLead { s with resolver := { s.resolver with octaveShift := f s.resolver.octaveShift } }

/-- PROGRAM_SWAP: the selector flips when the non-current bank is READY; otherwise nothing (R47, R73). -/
def swapPrograms (s : State) : State :=
  match s.bank s.banks.selector.other with
  | .ready _ => { s with banks := { s.banks with selector := s.banks.selector.other } }
  | _ => s

/-- The five actions (R45 to R48). -/
def act (d : Fin 4) (a : Action) (s : State) : State :=
  match a with
  | .octaveUp => shiftOctave octaveUp s
  | .octaveDown => shiftOctave octaveDown s
  | .harmonyToggle => toggleHarmony s
  | .programSwap => swapPrograms s
  | .report => raiseGesture d s

/-- A detector that has reached its count fires once and becomes unarmed (R43). -/
def fireDetector (d : Fin 4) (s : State) : State :=
  match s.firing d with
  | some a =>
    act d a { s with detectors := s.detectors.set d { s.detectors.get d with armed := false } }
  | none => s

/-- The lowest-numbered detector that has reached its count: actions take effect in detector order (R44). -/
def State.nextFiring (s : State) : Option (Fin 4) := allDetectors.find? fun d => (s.firing d).isSome

/-- DETECTOR_FIRE: the next detector in order fires. -/
def fireNext (s : State) : State :=
  match s.nextFiring with
  | some d => fireDetector d s
  | none => s

/-- Every detector that has reached its count fires, in detector order (R44). -/
def fireAll (s : State) : State := allDetectors.foldl (fun s d => fireDetector d s) s

/-- DETECTOR_FIRE (R43 to R48). -/
def execDetectorFire (s : State) : Host.Outcome State Fault Refusal := unlessHeld s fireNext

/-! ### The end of an onset, and sensor loss -/

/-- ONSET_END: the frame's detectors fire first, so that every lead-note change of the frame is carried by the lead start
(R9, R14, R44); the onset take (R9); then SOUNDING and the lead start (R32). (DEDUCED, assumption 8.) -/
def onsetEnd (s : State) : State :=
  if s.breath.articulation = .onset ∧ s.breath.onsetEnding then
    let s := fireAll s
    let s :=
      match s.resolver.previous with
      | some c => takeCandidate c s
      | none => s
    leadStart { s with breath := { s.breath with articulation := .sounding, onsetEnding := false } }
  else s

/-- ONSET_END (R9, R31, R32). -/
def execOnsetEnd (s : State) : Host.Outcome State Fault Refusal := unlessHeld s onsetEnd

/-- The Breath Shaper at a declared loss, while the image is LOADED: after capture n is 0 and the level C[0] with its class
(R21); the articulation ends whatever T_off is (R34). -/
def loseBreath (img : Image) (s : State) : State :=
  let s :=
    match s.breath.baseline with
    | some _ =>
      let level := img.curve.getD 0 0
      { s with breath := { s.breath with net := 0, level := level, levelClass := levelClassOf level } }
    | none => s
  match s.breath.articulation with
  | .sounding => endNote s
  | .onset => { s with breath := { s.breath with articulation := .silent, onsetEnding := false } }
  | .silent => s

/-- SENSOR_LOST: the missing-frame timer of a RECEIVING receiver has reached 8 (R20, R21, R34). The loss follows the gains of its
boundary, which still follow the level before it, and the pitch evaluation (DESIGN CHOICE, assumption 7). -/
def sensorLost (s : State) : State :=
  if s.sensor.receiver = .receiving ∧ Config.lossBlocks ≤ s.sensor.missingTimer then
    let s := raise .sensorLost { s with sensor := { s.sensor with receiver := .lost } }
    match s.image? with
    | some img => loseBreath img s
    | none => s
  else s

/-- SENSOR_LOST. -/
def execSensorLost (s : State) : Host.Outcome State Fault Refusal := unlessHeld s sensorLost

/-! ### One frame -/

/-- The skipped frames a sequence number reveals (R19). -/
def skipped (last : Option SensorFrame) (seq : Nat) : Nat :=
  match last with
  | none => 0
  | some f => if seq = f.seq then 0 else (seq + 256 - f.seq - 1) % 256

/-- The receiver takes a valid frame: the timer at 0, the gap counted, a loss ended with SENSOR_BACK (R18, R19, R22). -/
def receiveFrame (frame : SensorFrame) (s : State) : State :=
  let wasLost := decide (s.sensor.receiver = .lost)
  let s := { s with sensor := { receiver := .receiving
                                missingTimer := 0
                                lastFrame := some frame
                                missedFrames := min Config.counterMax
                                  (s.sensor.missedFrames + skipped s.sensor.lastFrame frame.seq) } }
  if wasLost then raise .sensorBack s else s

/-- What the detectors are handed of a frame: before capture is complete a net breath and a rise of 0 (R23, R37). -/
def State.sight (s : State) (captured : Bool) (img : Image) (frame : SensorFrame) : Sight :=
  { net := if captured then s.breath.net else 0
    rise := if captured then s.breath.rise else 0
    lip := frame.lip
    keys := img.maskedKeys frame.keys }

/-- A valid frame is passed on whole: to the Note Resolver, the Breath Shaper and the Gesture Detectors, each in LOADED
alone (R1, R23, R37). They act in that order (DEDUCED, assumption 18). -/
def passFrame (frame : SensorFrame) (s : State) : State :=
  match s.image? with
  | none => s
  | some img =>
    let captured := s.breath.baseline.isSome
    let s := breatheFrame img frame (resolveFrame img frame.keys s)
    detectFrame img (s.sight captured img frame) s

/-- A burst: a bad check is discarded and counts as not arrived, a valid frame is received and passed on (R18, R193). -/
def takeBurst (burst : List Byte) (s : State) : State :=
  match readBurst burst with
  | none => s
  | some frame => passFrame frame (receiveFrame frame s)

end Sys2Proof.Machine
end

