-- ==== Sys2Proof/Machine/Boundary.lean ====
section
/-!
DEFINITION. The audio block boundary: gain ramps and ends of voices (R58, R63 to R65), the pitch evaluation (R75 to R92),
the ages and timers a boundary advances, and the command ROOT_SETTLED.
-/

namespace Sys2Proof.Machine

/-! ### Gains -/

/-- The desired gain of a harmony voice: (breath level × rank level) >> 15 (R63). -/
def State.harmonyGain (s : State) (v : Voice) (r : Fin 3) : Nat :=
  (s.breath.level * ((s.programOfBank v.bank).rankPrograms.get r).level) >>> 15

/-- The desired gain of a PROVISIONAL or SOUNDING slot (R63), by the slot and the breath level as they stand before the steps that
fall together with the boundary (DESIGN CHOICE, assumption 7). -/
def State.desiredGain (s : State) (v : Voice) : Nat :=
  match v.role with
  | .lead =>
    match v.openingGain with
    | some peak => peak
    | none => s.breath.level
  | .harmony r =>
    match v.state with
    | .provisional => min (s.harmonyGain v r) (s.programOfBank v.bank).cap
    | _ => s.harmonyGain v r

/-- The target of a PROVISIONAL or SOUNDING slot from its gain current `g` (R64). -/
def limitedGain (desired g attack release : Nat) : Nat :=
  min Config.fullGain (min (g + attack) (max desired (g - release)))

/-- The withdraw step, fixed at the first boundary in WITHDRAW mode: the gain current over 8, rounded up, at least 1
(R58). -/
def withdrawStep (step : Option Nat) (g : Nat) : Nat :=
  match step with
  | some n => n
  | none => max 1 ((g + 7) / 8)

/-- A RELEASING voice whose gain current has come to 0 is gone: the slot is FREE, its announced flag and its phase as they
were (R61, R65). -/
def Slot.free (x : Slot) : Slot := { x with gainCurrent := 0, gainTarget := 0, voice := none }

/-- A slot at a boundary: the gain current takes the old target and a new target is set; a RELEASING voice at 0 leaves its
slot FREE, and a FREE slot stays as it is (R58, R63 to R65). -/
def State.gainStep (s : State) (x : Slot) : Slot :=
  match x.voice with
  | none => x
  | some v =>
    let g := x.gainTarget
    let p := s.programOfBank v.bank
    match v.state with
    | .releasingNormal => if g = 0 then x.free else { x with gainCurrent := g, gainTarget := g - p.releaseRate }
    | .releasingWithdraw step =>
      if g = 0 then x.free
      else
        let n := withdrawStep step g
        { x with gainCurrent := g, gainTarget := g - n, voice := some { v with state := .releasingWithdraw (some n) } }
    | _ =>
      { x with gainCurrent := g, gainTarget := limitedGain (s.desiredGain v) g p.attack p.releaseRate,
               voice := some { v with openingGain := none } }

/-- Every slot passed through `f`. -/
def mapSlots (f : Slot → Slot) (s : State) : State := { s with slots := s.slots.map f }

/-- Every voice passed through `f`; its slot keeps its announced flag, its gains and its phase. -/
def mapVoices (f : Voice → Voice) (s : State) : State := mapSlots (fun x => { x with voice := x.voice.map f }) s

/-- The gains of a boundary, and the read of a PENDING bank that lost its last reference (R64, R65, R71). -/
def stepGains (s : State) : State := loadPending (mapSlots s.gainStep s)

/-! ### The pitch evaluation -/

/-- A value moved toward a target by at most `rate`, taking the target within it (R77, R86). -/
def approach (x target : Int) (rate : Nat) : Int :=
  if (target - x).natAbs ≤ rate then target else if x < target then x + rate else x - rate

/-- Stage 1: the base glide of a voice; with rate 0 the base takes the target (R77). -/
def State.glide (s : State) (v : Voice) : Voice :=
  let rate := (s.programOfBank v.bank).portamento
  { v with baseCurrent := if rate = 0 then v.baseTarget else approach v.baseCurrent v.baseTarget rate }

/-- Stages 3 to 6 of a voice: just target, just slew, composition, increment (R84 to R92). -/
def State.tune (s : State) (v : Voice) : Voice :=
  let target := s.justTargetOf v.note v.bank
  let just := approach v.justCurrent target (s.programOfBank v.bank).slew
  s.composed { v with justTarget := target, justCurrent := just }

/-- A note joined to the root candidates, the lowest one kept (R79). -/
def lower (best : Option Nat) (n : Nat) : Option Nat :=
  match best with
  | some b => some (min b n)
  | none => some n

/-- The lowest note of the map entries of class 1, 2 or 3 (R79). -/
def State.mapRoot (s : State) : Option Nat :=
  s.map.entries.foldl (fun best e => if 1 ≤ e.levelClass then lower best e.note else best) none

/-- The candidate root: the lowest of the map's and of the station's SOUNDING slots (R79). -/
def State.candidateRoot (s : State) : Option Nat :=
  allEight.foldl
    (fun best t =>
      match s.voice t with
      | some v => if v.sounding then lower best v.note else best
      | none => best)
    s.mapRoot

/-- The root stage, up to the adoption of a candidate that has settled (R80, R81). A settle count that reaches 16 stands
until ROOT_SETTLED adopts the candidate and completes the evaluation. -/
def Pitch.rootStage (p : Pitch) (candidate : Option Nat) : Pitch :=
  match candidate, p.root with
  | none, _ => { p with root := none, settleCount := 0, previousRoot := none }
  | some c, none => { p with root := some c, settleCount := 0, previousRoot := some c }
  | some c, some root =>
    if c = root then { p with settleCount := 0, previousRoot := some c }
    else if p.previousRoot = some c then { p with settleCount := min Config.rootSettle (p.settleCount + 1) }
    else { p with settleCount := 0, previousRoot := some c }

/-- The candidate has been steady for 16 boundaries and is not adopted yet (R81). -/
def State.rootDue (s : State) : Bool := decide (Config.rootSettle ≤ s.pitch.settleCount)

/-- Stages 3 to 6 for every slot that is not FREE. -/
def tuneAll (s : State) : State := mapVoices s.tune s

/-- Stages 1 and 2, and the rest of the evaluation unless the root has just settled, when ROOT_SETTLED completes it
(R75). -/
def evaluatePitch (s : State) : State :=
  let s := mapVoices s.glide s
  let s := { s with pitch := s.pitch.rootStage s.candidateRoot }
  if s.rootDue then s else tuneAll s

/-- ROOT_SETTLED: the steady candidate is adopted, the settle count is 0, and stages 3 to 6 complete the evaluation of the
boundary (R75, R81; DEDUCED, assumption 9). -/
def rootSettled (s : State) : State :=
  if s.rootDue then
    tuneAll { s with pitch := { s.pitch with root := s.pitch.previousRoot, settleCount := 0 } }
  else s

/-- ROOT_SETTLED. -/
def execRootSettled (s : State) : Host.Outcome State Fault Refusal := unlessHeld s rootSettled

/-! ### Ages and timers -/

/-- The missing-frame timer at a boundary (R20). -/
def Sensor.tick (x : Sensor) : Sensor :=
  if x.receiver = .receiving then { x with missingTimer := min Config.lossBlocks (x.missingTimer + 1) } else x

/-- A rank's ages at a boundary (R105, R107), and the mark that a LOCAL_PENDING rank has met a boundary (R108; the
mark is the model's, assumption 7). -/
def Rank.tick (k : Rank) : Rank :=
  match k.stage with
  | .queued => { k with queuedAge := min Config.staleAge (k.queuedAge + 1) }
  | .window => { k with windowAge := min Config.windowAge (k.windowAge + 1) }
  | .localPending => { k with localDue := true }
  | _ => k

/-- A station record at a boundary (R122). -/
def StationRecord.tick (x : StationRecord) : StationRecord :=
  if x.present then { x with age := min Config.expiryAge (x.age + 1) } else x

/-- The ROSTER timer at a boundary in ACTIVE (R149). -/
def tickRoster (t : Option Nat) : Option Nat := t.map fun n => min Config.rosterBlocks (n + 1)

/-- The line timers at a boundary (R137, R139, R149). -/
def Line.tick (l : Line) : Line :=
  match l.state with
  | .joining => { l with joiningTimer := min Config.joiningBlocks (l.joiningTimer + 1) }
  | .listenOnly => { l with decayTimer := min Config.decayBlocks (l.decayTimer + 1) }
  | .active => { l with rosterTimer := tickRoster l.rosterTimer }
  | _ => l

/-- The waiting settings meet a boundary (R185; the marks are the model's, assumption 7). -/
def Panel.tick (p : Panel) : Panel :=
  { p with transposeDue := p.waitTranspose.isSome, tuningDue := p.waitTuning.isSome, keyDue := p.waitKey.isSome,
           ranksDue := p.waitRanks.isSome }

/-- The ages and timers of every block at a boundary, and the start of a new block of 48 samples (R159). -/
def tickAll (s : State) : State :=
  { s with
    sensor := s.sensor.tick
    harmony := { s.harmony with ranks := s.harmony.ranks.map Rank.tick }
    map := { s.map with stations := s.map.stations.map StationRecord.tick }
    line := s.line.tick
    audio := { s.audio with sampleIndex := 0 }
    panel := s.panel.tick }

/-- The work of one boundary: gains and ends of voices, the pitch evaluation, the ages and timers. A slot that becomes FREE
takes no part in the evaluation (R65, R75). What falls together with the boundary (a setting taken, a claim confirmed, a local
resolution, a sensor loss, a station's expiry) is taken after its gains and its evaluation, and enters those of the next boundary: a
claim confirmed here is still held to the cap, and at a sensor loss the gains still follow the level before it. R76 allows either
order against the evaluation, and R63 and R64 give none against the gains (DESIGN CHOICE, assumption 7). -/
def boundary (s : State) : State := tickAll (evaluatePitch (stepGains s))

end Sys2Proof.Machine
end

