-- ==== Sys2Proof/Machine/LineSteps.lean ====
section
/-!
DEFINITION. The Section Line Controller (spec 08): line states and their timers, sending, errors, own completions, and the
frames discarded.
-/

namespace Sys2Proof.Machine

/-! ### Line states -/

/-- Entering ACTIVE: LINE_ACTIVE raised and a ROSTER admitted, the ROSTER timer stopped (R137, R139). -/
def enterActive (s : State) : State :=
  enqueue .roster (raise .lineActive { s with line := { s.line with state := .active, rosterTimer := none } })

/-- Leaving ACTIVE for another state: the queue emptied, no frame under way, the ROSTER timer stopped, every QUEUED rank
LOCAL_PENDING (R106, R138). -/
def leaveActive (dest : LineState) (s : State) : State :=
  allRanks.foldl (fun s r => makeLocal r s)
    { s with line := { s.line with state := dest, queue := [], underWay := none, rosterTimer := none } }

/-- JOINING_COMPLETE: the joining timer has reached 200 in JOINING (R137). -/
def joiningComplete (s : State) : State :=
  if s.line.state = .joining ∧ Config.joiningBlocks ≤ s.line.joiningTimer then enterActive s else s

/-- JOINING_COMPLETE. -/
def execJoiningComplete (s : State) : Host.Outcome State Fault Refusal := unlessHeld s joiningComplete

/-- DECAY_TIMER_EXPIRY: the decay timer has reached 8 in LISTEN_ONLY; the error counter falls by one and the timer returns
to 0 (R139). -/
def decayExpiry (s : State) : State :=
  if s.line.state = .listenOnly ∧ Config.decayBlocks ≤ s.line.decayTimer then
    { s with line := { s.line with errorCounter := s.line.errorCounter - 1, decayTimer := 0 } }
  else s

/-- DECAY_TIMER_EXPIRY. -/
def execDecayTimerExpiry (s : State) : Host.Outcome State Fault Refusal := unlessHeld s decayExpiry

/-- LISTEN_ONLY_END: the error counter has decayed to 0 in LISTEN_ONLY (R139). -/
def listenOnlyEnd (s : State) : State :=
  if s.line.state = .listenOnly ∧ s.line.errorCounter = 0 then enterActive s else s

/-- LISTEN_ONLY_END. -/
def execListenOnlyEnd (s : State) : Host.Outcome State Fault Refusal := unlessHeld s listenOnlyEnd

/-- The ROSTER timer has reached 64 (R149). -/
def Line.rosterDue (l : Line) : Bool :=
  match l.rosterTimer with
  | some n => decide (l.state = .active) && decide (Config.rosterBlocks ≤ n)
  | none => false

/-- ROSTER_TIMER_EXPIRY: a ROSTER is admitted and the timer stops (R149). -/
def rosterExpiry (s : State) : State := if s.line.rosterDue then enqueue .roster s else s

/-- ROSTER_TIMER_EXPIRY. -/
def execRosterTimerExpiry (s : State) : Host.Outcome State Fault Refusal := unlessHeld s rosterExpiry

/-! ### Sending -/

/-- The ROSTER entry of a slot that is SOUNDING, with the level class as it stands (R150). -/
def State.rosterEntry (s : State) (t : Fin 8) : Option RosterEntry :=
  match s.voice t with
  | some v =>
    if v.sounding then
      some { tag := t, note := v.note, role := v.role.onLine, levelClass := s.breath.levelClass }
    else none
  | none => none

/-- The contents of a ROSTER, taken at the start of its transmission: every SOUNDING slot in tag order (R150). -/
def State.rosterContents (s : State) : List RosterEntry := allEight.filterMap s.rosterEntry

/-- What the frame of a record carries: a ROSTER's contents are taken now, any other record's stand as admitted (R146 to
R150). -/
def State.payloadOf (s : State) : Record → Payload
  | .noteStart t n r c => .noteStart t n r c
  | .noteEnd t => .noteEnd t
  | .held a k n r => .held a k n r
  | .claim _ k n => .claim k n
  | .roster => .roster s.rosterContents

/-- TRANSMIT_START: an ACTIVE station with a record queued takes part in the frame with its head record; the record stays
in the queue, marked (R151, R152). A station already driving a frame starts none. -/
def transmitStart (s : State) : State :=
  match s.line.queue, s.line.underWay with
  | head :: rest, none =>
    if s.line.state = .active then
      { s with line := { s.line with queue := { head with underWay := true } :: rest
                                     underWay := some (s.payloadOf head.record)
                                     readingAbandoned := false } }
    else s
  | _, _ => s

/-- The frame being driven, with the own station number in its header. -/
def State.ownFrame (s : State) : Option LineFrame :=
  s.line.underWay.map fun p => { station := s.power.station, payload := p }

/-- The queue with no record marked as under way. -/
def unmark (q : List Queued) : List Queued := q.map fun y => { y with underWay := false }

/-- ARBITRATION_LOST: a lower header wins, the station stops driving and keeps its record with its abandon count
(R153). A header that is not lower does not win (DESIGN CHOICE, assumption 13). -/
def arbitrationLost (winner : Byte) (s : State) : State :=
  match s.line.underWay with
  | some p =>
    if winner.toNat < (headerByte s.power.station p).toNat then
      { s with line := { s.line with queue := unmark s.line.queue, underWay := none } }
    else s
  | none => s

/-- The record whose frame is under way, while it is still queued (R151). -/
def Line.marked (l : Line) : Option Queued := l.queue.find? fun y => y.underWay

/-- The queue without the record under way. -/
def dropMarked (q : List Queued) : List Queued := q.filter fun y => !y.underWay

/-- The record under way retried: its abandon count rises and it stays in its place (R154, step 3). -/
def retryMarked (q : List Queued) : List Queued :=
  q.map fun y => if y.underWay then { y with abandons := y.abandons + 1, underWay := false } else y

/-- What the dropping of a record does beside the count (R147, R149, R154). -/
def recordDropped (r : Record) (s : State) : State :=
  match r with
  | .claim q _ _ => makeLocal q s
  | .roster => { s with line := { s.line with rosterTimer := some 0 } }
  | _ => s

/-- The record under way after a bit error that leaves the line ACTIVE: nothing to retry when it is no longer queued, a
retry, or the drop at the third abandonment (R151, R154, steps 3 and 4). -/
def abandonRecord (s : State) : State :=
  match s.line.marked with
  | none => s
  | some y =>
    if y.abandons + 1 < Config.abandonLimit then
      { s with line := { s.line with queue := retryMarked s.line.queue } }
    else
      recordDropped y.record
        { s with line := { s.line with queue := dropMarked s.line.queue
                                       recordsDropped := countUp s.line.recordsDropped } }

/-- BIT_ERROR: the own frame is abandoned; the error counter rises by 8; at 96 or more LISTEN_ONLY is entered, and else the
record is retried or dropped (R154, R156). -/
def bitError (s : State) : State :=
  match s.line.underWay with
  | none => s
  | some _ =>
    let s := { s with line := { s.line with
      errorCounter := min Config.errorMax (s.line.errorCounter + Config.errorRise)
      underWay := none
      readingAbandoned := true } }
    if Config.errorLimit ≤ s.line.errorCounter then
      let s := leaveActive .listenOnly s
      raise .lineListenOnly { s with line := { s.line with decayTimer := 0 } }
    else abandonRecord s

/-- The window of the rank that is QUEUED with this claim number opens (R104). -/
def openWindow (number : Byte) (s : State) : State :=
  match allRanks.find? fun r =>
      decide ((s.rank r).stage = .queued) && decide ((s.rank r).claim.map Claim.number = some number) with
  | some r => setRank r { s.rank r with stage := .window, windowAge := 0 } s
  | none => s

/-- What an own completion hands on: announced flags (R61) and claim windows (R104). -/
def ownCompletion (p : Payload) (s : State) : State :=
  match p with
  | .noteStart t _ _ _ => setAnnounced t true s
  | .noteEnd t => setAnnounced t false s
  | .roster es =>
    es.foldl (fun s e => setAnnounced e.tag true s) { s with line := { s.line with rosterTimer := some 0 } }
  | .claim number _ => openWindow number s
  | .held _ _ _ _ => s

/-- OWN_FRAME_COMPLETE: the error counter falls, the record leaves the queue unless it was removed or replaced, and the
completion is handed on with the contents the frame carried (R155). -/
def ownFrameComplete (s : State) : State :=
  match s.line.underWay with
  | none => s
  | some p =>
    ownCompletion p
      { s with line := { s.line with errorCounter := s.line.errorCounter - 1
                                     queue := dropMarked s.line.queue
                                     underWay := none } }

/-! ### Frames that are not good -/

/-- The frame being read is over: what was abandoned is no longer being read (R154). -/
def frameOver (s : State) : State := { s with line := { s.line with readingAbandoned := false } }

/-- LINE_FRAME_BROKEN: bits that break off, or in which a separator reads 1, are a discarded frame and counted; the own
frame abandoned at a bit error is not (R142, R143, R154, R194). -/
def lineFrameBroken (bits : List Bool) (s : State) : State :=
  if s.receives ∧ readBits bits = .broken then
    if s.line.readingAbandoned then frameOver s else countBadFrame s
  else s

/-- FRAME_DISCARDED: a frame that fails the tests of R143 and R195 is counted and handed to no block. The own frame abandoned at a
bit error that never completes, its reading ending at a length its kind does not allow, is not counted (R142, R154; DEDUCED,
assumption 14). -/
def frameDiscarded (frame : List Byte) (s : State) : State :=
  if s.receives ∧ verdict frame = .discard then
    if s.line.readingAbandoned ∧ stopsAtLength frame then frameOver s else countBadFrame (frameOver s)
  else s

/-- DUPLICATE_FRAME: a good frame bearing the own number raises DUPLICATE_STATION and takes the line to DUPLICATE_HOLD; it
is handed to no block (R131, R132, R138, R140). -/
def duplicateFrame (frame : List Byte) (s : State) : State :=
  match verdict frame with
  | .good f =>
    if s.receives ∧ f.station = s.power.station then
      let s := raise .duplicateStation (frameOver s)
      match s.line.state with
      | .active => leaveActive .duplicateHold s
      | _ => { s with line := { s.line with state := .duplicateHold } }
    else s
  | _ => s

end Sys2Proof.Machine
end

