-- ==== Sys2Proof/Machine/Peers.lean ====
section
/-!
DEFINITION. Peer frames (spec 07, and 6.5, 6.6): presence, the map's updates, the yield checks and the answering of claims;
and STATION_EXPIRY.
-/

namespace Sys2Proof.Machine

/-- A rank's claim note is this note. -/
def Rank.claims (k : Rank) (note : Nat) : Bool := decide (k.claim.map Claim.note = some note)

/-- A rank's stage is one of these. -/
def Rank.inStage (k : Rank) (stages : List Stage) : Bool := decide (k.stage ∈ stages)

/-- Whether a rank yields to a placed entry (R112, R113): to a LEAD entry on its claim note in any stage that holds a claim;
to a HARMONY entry in QUEUED, WINDOW or LOCAL_PENDING, and in SOUNDING when the own station number is the higher. -/
def State.yieldsTo (s : State) (r : Fin 3) (e : MapEntry) : Bool :=
  (s.rank r).claims e.note &&
    match e.role with
    | .lead => (s.rank r).inStage [.queued, .window, .localPending, .sounding]
    | .harmony =>
      (s.rank r).inStage [.queued, .window, .localPending] ||
        ((s.rank r).inStage [.sounding] && decide (e.station < s.power.station))

/-- The yield check of one placed entry, rank by rank in rank order, each with its re-plan (R112 to R114, R129). -/
def checkEntry (e : MapEntry) (s : State) : State :=
  allRanks.foldl (fun s r => if s.yieldsTo r e then yieldRank r s else s) s

/-- PEER_NOTE_START: presence, the entry placed, its yield check (R121, R125, R129). -/
def peerNoteStart (frame : List Byte) (s : State) : State :=
  match s.peerFrame frame with
  | some { station := st, payload := .noteStart t n role c } =>
    let e : MapEntry := { station := st, tag := t, note := n, role := role, levelClass := c }
    let s := refreshStation st (frameOver s)
    checkEntry e (setEntries (insertEntry e s.map.entries) s)
  | _ => s

/-- PEER_NOTE_END: presence, and the entry removed if the map holds it; nothing handed on (R121, R126). -/
def peerNoteEnd (frame : List Byte) (s : State) : State :=
  match s.peerFrame frame with
  | some { station := st, payload := .noteEnd t } =>
    let s := refreshStation st (frameOver s)
    setEntries (removeEntry (8 * st.val + t.val) s.map.entries) s
  | _ => s

/-- PEER_ROSTER: presence, the station's entries replaced whole, then the yield check of each entry placed, in tag order
(R121, R127, R129). The entries placed are those the map then holds for the station. -/
def peerRoster (frame : List Byte) (s : State) : State :=
  match s.peerFrame frame with
  | some { station := st, payload := .roster es } =>
    let s := refreshStation st (frameOver s)
    let entries := replaceStation st es s.map.entries
    (entries.filter fun e => decide (e.station = st)).foldl (fun s e => checkEntry e s) (setEntries entries s)
  | _ => s

/-- A slot is SOUNDING on a note (R115, first two conditions). -/
def State.soundsNote (s : State) (note : Nat) : Bool :=
  allEight.any fun t =>
    match s.voice t with
    | some v => v.sounding && decide (v.note = note)
    | none => false

/-- The answer to a peer's claim on a note, by the first condition that holds (R115). -/
def State.answer (s : State) (note : Nat) : Option HeldReason :=
  if s.soundsNote note then some .sounding
  else if allRanks.any fun r => (s.rank r).inStage [.window] && (s.rank r).claims note then some .earlierClaim
  else none

/-- PEER_CLAIM: presence; every QUEUED or LOCAL_PENDING rank on the note yields; then, in ACTIVE, the HELD of R115
(R111, R114, R115, R128). -/
def peerClaim (frame : List Byte) (s : State) : State :=
  match s.peerFrame frame with
  | some { station := st, payload := .claim k n } =>
    let s := refreshStation st (frameOver s)
    let s := allRanks.foldl
      (fun s r =>
        if (s.rank r).claims n && (s.rank r).inStage [.queued, .localPending] then yieldRank r s else s) s
    match s.answer n with
    | some reason => enqueue (.held st k n reason) s
    | none => s
  | _ => s

/-- The rank a HELD addressed to this station names: it holds the number and the note in WINDOW, LOCAL_PENDING or SOUNDING
(R110). -/
def State.heldRank (s : State) (number : Byte) (note : Nat) : Option (Fin 3) :=
  allRanks.find? fun r =>
    decide ((s.rank r).claim = some { number := number, note := note }) &&
      (s.rank r).inStage [.window, .localPending, .sounding]

/-- PEER_HELD: presence, and the yield of the rank it names (R110, R121, R128). -/
def peerHeld (frame : List Byte) (s : State) : State :=
  match s.peerFrame frame with
  | some { station := st, payload := .held addressed k n _ } =>
    let s := refreshStation st (frameOver s)
    if addressed = s.power.station then
      match s.heldRank k n with
      | some r => yieldRank r s
      | none => s
    else s
  | _ => s

/-- STATION_EXPIRY: a present peer's age has reached 200; it becomes absent and its entries are removed, handing nothing on
(R122, R129). The age of an absent record, which the spec gives no meaning, is 0 (DESIGN CHOICE, assumption 20). The expiry follows
the pitch evaluation of its boundary, which still counts the entries it removes (DESIGN CHOICE, assumption 7). -/
def stationExpiry (st : Fin 8) (s : State) : State :=
  if (s.map.stations.get st).present ∧ Config.expiryAge ≤ (s.map.stations.get st).age then
    setEntries (removeStation st s.map.entries) (setStation st { present := false, age := 0 } s)
  else s

/-- STATION_EXPIRY. -/
def execStationExpiry (st : Fin 8) (s : State) : Host.Outcome State Fault Refusal := unlessHeld s (stationExpiry st)

end Sys2Proof.Machine
end

