-- ==== Sys2Proof/Machine/Render.lean ====
section
/-!
DEFINITION. The Render Engine and the Audio Port (spec 09): one sample period.
-/

namespace Sys2Proof.Machine

/-- A slot after the advance of its phase by its increment, modulo 2^32; a FREE slot's phase stands (R160). -/
def advancePhase (x : Slot) : Slot :=
  match x.voice with
  | some v => { x with phase := x.phase + BitVec.ofNat 32 v.increment }
  | none => x

/-- Wave table `t` of the wave RAM (R162). -/
def State.wave (s : State) (t : Nat) : List Int :=
  match s.image? with
  | some img => img.waves.getD t []
  | none => []

/-- The master gain M: 0 without an installed image (R170). -/
def State.masterGain (s : State) : Nat :=
  match s.image? with
  | some img => img.masterGain
  | none => 0

/-- The value of a wave table at a phase, interpolated between neighbours (R163). -/
def lookupWave (table : List Int) (phase : BitVec 32) : Int :=
  let i := phase.toNat / 16777216
  let fr := phase.toNat / 65536 % 256
  let a := table.getD i 0
  let b := table.getD ((i + 1) % 256) 0
  a + ((b - a) * (fr : Int)) >>> 8

/-- The brightness weight of a program at a breath level (R165). -/
def brightness (level depth : Nat) : Nat := (level * depth) >>> 15

/-- The blend of the soft and the bright value (R165). -/
def blend (soft bright : Int) (w : Nat) : Int := soft + ((bright - soft) * (w : Int)) >>> 15

/-- The gain at sample `k` of the block ramp (R166). -/
def rampGain (start target k : Nat) : Int := (start : Int) + (((target : Int) - start) * (k : Int)).tdiv 48

/-- The output of a slot at sample `k`, at its advanced phase; nothing from a FREE slot (R50, R163 to R168). -/
def State.slotOutput (s : State) (k : Nat) (x : Slot) : Int :=
  match x.voice with
  | some v =>
    let p := s.programOfBank v.bank
    let soft := lookupWave (s.wave p.softWave) x.phase
    let bright := lookupWave (s.wave p.brightWave) x.phase
    (blend soft bright (brightness s.breath.level p.depth) * rampGain x.gainCurrent x.gainTarget k) >>> 15
  | none => 0

/-- The sum of the outputs of every slot that is not FREE (R169). -/
def State.mixSum (s : State) (k : Nat) : Int :=
  allEight.foldl (fun acc t => acc + s.slotOutput k (s.slot t)) 0

/-- The mix scaled by the master gain (R170). -/
def scaleMix (sum : Int) (m : Nat) : Int := (sum * (m : Int)) >>> 8

/-- Saturation to the 24-bit range (R171). -/
def saturate (x : Int) : Int := clampInt (-8388608) 8388607 x

/-- The sample a stream frame carries: the engine's of the period before while LOADED, else zero (R172, R173). -/
def State.streamSample (s : State) : Int :=
  match s.loader.image with
  | .loaded _ => s.audio.engineSample
  | _ => 0

/-- A sample as the 24-bit two's complement word of a channel (R172). -/
def sampleWord (x : Int) : BitVec 24 := BitVec.ofInt 24 x

/-- The stream frame of a sample: the same word on both channels (R172). -/
def streamFrame (x : Int) : StreamFrame := { left := sampleWord x, right := sampleWord x }

/-- The bits of a channel word, most significant first (R172). -/
def channelBits (w : BitVec 24) : List Bool := (List.range 24).map fun i => w.getLsbD (23 - i)

/-- The sample bits of a stream frame, channel after channel (R172). -/
def StreamFrame.bits (f : StreamFrame) : List Bool := channelBits f.left ++ channelBits f.right

/-- A saturated sample: the clip count rises and CLIP occurs (R171). -/
def clip (s : State) : State :=
  raise .clip { s with audio := { s.audio with clipCount := countUp s.audio.clipCount } }

/-- One sample period (R159): the stream frame carries the sample of the period before, the phases advance, the voices are
summed, scaled and saturated. The block's samples are numbered from its boundary; past the forty-eighth the ramp stands at
its target (DESIGN CHOICE, assumption 12). -/
def renderSample (s : State) : State :=
  let k := min Config.samplesPerBlock (s.audio.sampleIndex + 1)
  let sent := streamFrame s.streamSample
  let s := mapSlots advancePhase s
  let sum := s.mixSum k
  let scaled := scaleMix sum s.masterGain
  let s := { s with audio := { s.audio with sampleIndex := k, mix := sum, engineSample := saturate scaled,
                                            sent := sent } }
  if saturate scaled = scaled then s else clip s

end Sys2Proof.Machine
end

