-- ==== Sys2Proof/Machine/Banking.lean ====
section
/-!
DEFINITION. Power-on, the image load, RELOAD and program reads (R69 to R74, R175 to R181).
-/

namespace Sys2Proof.Machine

/-! ### Power-on -/

/-- POWER_ON_RESET: every block at its power-on values; the commands waiting are not the part's and stay (R175). -/
def execPowerOnReset (s : State) : Host.Outcome State Fault Refusal := .next { State.reset with pending := s.pending }

/-- An image load begins: LOADING_IMAGE, the load the read in flight (R175, R176, R181). -/
def beginLoad (s : State) : State := { s with loader := { s.loader with image := .loading, reading := some .imageLoad } }

/-- RESET_RELEASE: the straps are read as the station number, STN2 the most significant, and the load begins (R175). -/
def releaseReset (straps : BitVec 3) (s : State) : State :=
  if s.power.resetHeld then
    beginLoad { s with power := { resetHeld := false, station := ⟨straps.toNat, straps.isLt⟩ } }
  else s

/-- RESET_RELEASE. -/
def execResetRelease (straps : BitVec 3) (s : State) : Host.Outcome State Fault Refusal :=
  .next (releaseReset straps s)

/-! ### The image load -/

/-- The image load is the read in flight. -/
def State.loadingImage (s : State) : Bool := decide (s.loader.image = .loading ∧ s.loader.reading = some .imageLoad)

/-- The ROSTER a re-read's completion admits in ACTIVE (R141, R149). A start-up load finds the line DISABLED. -/
def rosterAfterLoad (s : State) : State := if s.line.state = .active then enqueue .roster s else s

/-- IMAGE_LOAD_FAULT: the flash fails a check of R177; nothing is installed, both banks EMPTY, IMAGE_FAULT raised (R74,
R177). The line keeps its state: DISABLED after a start-up load (R136), as it was after a re-read (R141). Live settings taken during
the load stand (DEDUCED, assumption 15). -/
def imageLoadFault (flash : List Byte) (s : State) : State :=
  if s.loadingImage ∧ loadImage flash = none then
    rosterAfterLoad
      (raise .imageFault
        { s with loader := { image := .fault, reading := none, startUpDone := true }, banks := Banks.reset })
  else s

/-- DEFAULT_PROGRAM_READ_START: with every section good and a program to read, bank A becomes LOADING with the default
number, the selector on A (R74, R178). -/
def defaultReadStart (flash : List Byte) (s : State) : State :=
  if s.loadingImage then
    match loadImage flash with
    | some img =>
      match img.defaultNumber with
      | some n => { s with banks := { a := .loading n, b := .empty, selector := .bankA } }
      | none => s
    | none => s
  else s

/-- The default program as the load's last read leaves it: its number and contents, or none where no default program can
be read (R74, R178). -/
def Image.defaultHeld (img : Image) (flash : List Byte) : Option Held :=
  match img.defaultNumber with
  | some n => (img.readProgram flash n).map fun p => { number := n, params := p }
  | none => none

/-- The banks when a load ends LOADED (R74, R178). -/
def banksAfterLoad (h : Option Held) : Banks :=
  { a := (match h with | some h => .ready h | none => .empty), b := .empty, selector := .bankA }

/-- The line state when a load ends LOADED: a start-up load takes the line enable (R136), a re-read keeps the state and
admits a ROSTER in ACTIVE (R141). -/
def lineAfterLoad (startUp enable : Bool) (s : State) : State :=
  if startUp then
    { s with line := { s.line with state := if enable then .joining else .disabled, joiningTimer := 0 } }
  else rosterAfterLoad s

/-- IMAGE_LOAD_COMPLETE: every section is installed whole; bank A is READY with the default program or EMPTY with
PROGRAM_FAULT; IMAGE_LOADED; the baseline capture begins; the detectors start afresh; the live key and scale set take the
image's and the other live settings stand; the line follows R136 or R141 (R24, R49, R74, R176, R178, R185). The lead note is that of the
transpose then live (DEDUCED, assumption 26), and the read of the default block need not have been commanded (DESIGN CHOICE,
assumption 22). -/
def imageLoadComplete (flash : List Byte) (s : State) : State :=
  if s.loadingImage then
    match loadImage flash with
    | none => s
    | some img =>
      let h := img.defaultHeld flash
      let startUp := !s.loader.startUpDone
      let s := { s with
        loader := { image := .loaded img, reading := none, startUpDone := true }
        banks := banksAfterLoad h
        breath := { s.breath with baseline := none, captureCount := 0, captureSum := 0 }
        detectors := detectorsReset
        resolver := { s.resolver with leadNote := s.resolver.computeLead }
        harmony := { s.harmony with key := img.defaultKey, scale := img.defaultScale } }
      let s := if h = none then raise .programFault s else s
      lineAfterLoad startUp img.lineEnable (raise .imageLoaded s)
  else s

/-! ### Program reads -/

/-- PROGRAM_READ_COMPLETE: a good block makes the bank READY, flips the selector to it and raises PROGRAM_LOADED; a bad one
makes it EMPTY and raises PROGRAM_FAULT (R72, R180). -/
def programReadComplete (flash : List Byte) (s : State) : State :=
  match s.loader.reading, s.image? with
  | some (.programRead b n), some img =>
    let s := { s with loader := { s.loader with reading := none } }
    match img.readProgram flash n with
    | some p =>
      let s := setBank b (.ready { number := n, params := p }) s
      raise .programLoaded { s with banks := { s.banks with selector := b } }
    | none => raise .programFault (setBank b .empty s)
  | _, _ => s

/-- A bank holds exactly this program, READY. -/
def BankState.isReady (x : BankState) (n : Nat) : Bool :=
  match x with
  | .ready h => decide (h.number = n)
  | _ => false

/-- A PENDING bank keeps exactly this program: the one it would return to. -/
def BankState.keeps? (x : BankState) (n : Nat) : Option Held :=
  match x with
  | .pending _ (some h) => if h.number = n then some h else none
  | _ => none

/-- The abandonment of a program read; an image load is not one (R70, R180). -/
def abandonRead (s : State) : State :=
  match s.loader.reading with
  | some (.programRead _ _) => { s with loader := { s.loader with reading := none } }
  | _ => s

/-- A PENDING or LOADING bank cancelled: READY with its held program or EMPTY (R70). -/
def cancelBank (b : BankId) (s : State) : State :=
  match s.bank b with
  | .pending _ (some h) => setBank b (.ready h) s
  | .pending _ none => setBank b .empty s
  | .loading _ => abandonRead (setBank b .empty s)
  | _ => s

/-- The selector flips to a bank. -/
def selectBank (b : BankId) (s : State) : State := { s with banks := { s.banks with selector := b } }

/-- A PROGRAM n that is not refused: the first row of the table of R69 that applies. -/
def requestProgram (n : Nat) (s : State) : State :=
  let other := s.banks.selector.other
  if (s.bank s.banks.selector).isReady n then raise .programLoaded (cancelBank other s)
  else if (s.bank other).isReady n then raise .programLoaded (selectBank other s)
  else
    match (s.bank other).keeps? n with
    | some h => raise .programLoaded (selectBank other (setBank other (.ready h) s))
    | none =>
      if s.referenced other then setBank other (.pending n (s.bank other).held?) s
      else
        let s := setBank other (.loading n) s
        { s with loader := { s.loader with reading := some (.programRead other n) } }

/-! ### RELOAD -/

/-- Every block takes its RELOAD values (R181, table): R16, R36, R49, R66, R74, R82, R119, R134, R141, R174, R192; any read
in flight is abandoned and a new image load begins. The engine's last sample goes with the voices (DEDUCED, assumption 21). What no
rule names takes its power-on value: the masked key set is 0 (DESIGN CHOICE, assumption 25), and so are the phases, which no slot
then reads (DESIGN CHOICE, assumption 17). -/
def reloadPart (s : State) : State :=
  beginLoad
    { s with
      resolver := { Resolver.reset with unresolvedFrames := s.resolver.unresolvedFrames }
      breath := Breath.reset
      detectors := detectorsReset
      slots := slotsReset
      banks := Banks.reset
      pitch := Pitch.reset
      harmony := { Harmony.reset with counter := s.harmony.counter }
      line := { s.line with queue := [], rosterTimer := none }
      audio := { s.audio with engineSample := 0 }
      panel := { s.panel with waitTranspose := none, waitTuning := none, waitKey := none, waitRanks := none,
                              transposeDue := false, tuningDue := false, keyDue := false, ranksDue := false } }

end Sys2Proof.Machine
end

