-- ==== Sys2Proof/Machine/Panel.lean ====
section
/-!
DEFINITION. The Panel Port (spec 10): the processing of each message at the head of the in FIFO, the reports, and the
transfers.
-/

namespace Sys2Proof.Machine

/-- A REFUSED record (R186). -/
def refuseMessage (code : RefusalCode) (kind : Byte) (s : State) : State := place (.refused code kind) s

/-- PROGRAM n as it is taken (R69, R186): refused when n is not below the program count. -/
def takeProgram (n : Nat) (s : State) : State :=
  if s.programCount ≤ n then refuseMessage .badProgram 1 s else requestProgram n s

/-- TRANSPOSE fixes the value to be taken, clamped; it replaces one that waits (R185; DEDUCED, assumption 24). A value fixed now
has met no boundary yet. None that has is lost to it: every message that could be processed is processed before a boundary, and a
later one can be only after a transfer, which completes the takings of the boundary first. -/
def fixTranspose (v : Int) (s : State) : State :=
  { s with panel := { s.panel with waitTranspose := some (clampInt (-12) 12 v), transposeDue := false } }

/-- TUNING fixes the value to be taken, clamped (R185). -/
def fixTuning (v : Int) (s : State) : State :=
  { s with panel := { s.panel with waitTuning := some (clampInt (-500) 500 v), tuningDue := false } }

/-- KEY fixes key mod 12 and the scale set, or is refused when the set is empty (R185). -/
def fixKey (k : Nat) (scale : BitVec 12) (s : State) : State :=
  if scale = 0 then refuseMessage .badValue 4 s
  else { s with panel := { s.panel with waitKey := some (k % 12, scale), keyDue := false } }

/-- RANKS fixes the set (R185). -/
def fixRanks (set : BitVec 3) (s : State) : State :=
  { s with panel := { s.panel with waitRanks := some set, ranksDue := false } }

/-- The lead note a STATUS carries: present while LOADED (R187). -/
def State.reportedLead (s : State) : Option Nat :=
  match s.image? with
  | some _ => some s.resolver.leadNote
  | none => none

/-- STATUS_STATE as the part stands (R187, spec 11.4). -/
def State.statusState (s : State) : PanelRecord :=
  .statusState
    (BitVec.ofNat 8 (s.power.station.val + 8 * s.loader.image.code + 32 * s.line.state.code))
    (BitVec.ofNat 8 (s.banks.a.byte + match s.banks.selector with | .bankA => 0 | .bankB => 128))
    (BitVec.ofNat 8 s.banks.b.byte)
    (optionalNote s.reportedLead)
    (optionalNote s.pitch.root)

/-- The four records of a STATUS_REPORT (R187). -/
def State.statusReport (s : State) : List PanelRecord :=
  [s.statusState, .statusEvents s.panel.events.bits s.panel.gestureSet,
    .statusCountA s.sensor.missedFrames s.resolver.unresolvedFrames s.line.badFrames,
    .statusCountB s.line.recordsDropped s.line.heldDropped s.audio.clipCount]

/-- STATUS: the four records are placed together and every standing event is marked reported (R187). -/
def takeStatus (s : State) : State :=
  { s with panel := { s.panel with outFifo := s.panel.outFifo ++ s.statusReport
                                   events := s.panel.events.reportAll } }

/-- SECTION: the report number advances and the report starts afresh (R188). -/
def startReport (s : State) : State :=
  { s with panel := { s.panel with reportNumber := s.panel.reportNumber + 1
                                   report := some { lastKey := none, count := 0 } } }

/-- ACK: each listed event that stands reported is removed; removing GESTURE_REPORT empties its detector set (R48,
R190). -/
def takeAck (listed : BitVec 13) (s : State) : State :=
  let events := s.panel.events.ack listed
  { s with panel := { s.panel with events := events
                                   gestureSet := if events.gestureReport = .absent then 0 else s.panel.gestureSet } }

/-- A command that processes the message at the head of the in FIFO (R183): `f` gives the effect of the message where it is
the one the command names and the out FIFO has room for it; the message is then removed. -/
def processHead (f : Message → Option (State → State)) (s : State) : State :=
  match s.headMessage with
  | some m =>
    match f m with
    | some g => g (dropHead s)
    | none => s
  | none => s

/-- PROGRAM. -/
def onProgram : Message → Option (State → State)
  | .program n => some (takeProgram n)
  | _ => none

/-- TRANSPOSE. -/
def onTranspose : Message → Option (State → State)
  | .transpose v => some (fixTranspose v)
  | _ => none

/-- TUNING. -/
def onTuning : Message → Option (State → State)
  | .tuning v => some (fixTuning v)
  | _ => none

/-- KEY. -/
def onKey : Message → Option (State → State)
  | .key k scale => some (fixKey k scale)
  | _ => none

/-- RANKS. -/
def onRanks : Message → Option (State → State)
  | .ranks set => some (fixRanks set)
  | _ => none

/-- ALL_OFF (R62, R117). -/
def onAllOff : Message → Option (State → State)
  | .allOff => some releaseAll
  | _ => none

/-- STATUS. -/
def onStatus : Message → Option (State → State)
  | .status => some takeStatus
  | _ => none

/-- SECTION. -/
def onSection : Message → Option (State → State)
  | .sectionReport => some startReport
  | _ => none

/-- ACK. -/
def onAck : Message → Option (State → State)
  | .ack listed => some (takeAck listed)
  | _ => none

/-- RELOAD. -/
def onReload : Message → Option (State → State)
  | .reload => some reloadPart
  | _ => none

/-- A message of unknown kind code: refused with BAD_MESSAGE (R186). -/
def onBad : Message → Option (State → State)
  | .unknown kind => some (refuseMessage .badMessage kind)
  | _ => none

/-- The effect of any message (R183): that of the command of its kind. An IDLE is never in the FIFO (R182). -/
def onMessage : Message → Option (State → State)
  | .idle => some id
  | .program n => onProgram (.program n)
  | .transpose v => onTranspose (.transpose v)
  | .tuning v => onTuning (.tuning v)
  | .key k scale => onKey (.key k scale)
  | .ranks set => onRanks (.ranks set)
  | .allOff => onAllOff .allOff
  | .status => onStatus .status
  | .sectionReport => onSection .sectionReport
  | .ack listed => onAck (.ack listed)
  | .reload => onReload .reload
  | .unknown kind => onBad (.unknown kind)

/-- The messages at the head of the in FIFO are processed one after the other, `fuel` of them at most, until one waits for
out FIFO space or none is left (R183). -/
def processMessages : Nat → State → State
  | 0, s => s
  | fuel + 1, s =>
    match s.headMessage with
    | some _ => processMessages fuel (processHead onMessage s)
    | none => s

/-- PROGRAM (R69, R70). -/
def execProgram (s : State) : Host.Outcome State Fault Refusal := unlessHeld s (processHead onProgram)

/-- TRANSPOSE (R185). -/
def execTranspose (s : State) : Host.Outcome State Fault Refusal := unlessHeld s (processHead onTranspose)

/-- TUNING (R185). -/
def execTuning (s : State) : Host.Outcome State Fault Refusal := unlessHeld s (processHead onTuning)

/-- KEY (R185). -/
def execKey (s : State) : Host.Outcome State Fault Refusal := unlessHeld s (processHead onKey)

/-- RANKS (R185). -/
def execRanks (s : State) : Host.Outcome State Fault Refusal := unlessHeld s (processHead onRanks)

/-- ALL_OFF (R62). -/
def execAllOff (s : State) : Host.Outcome State Fault Refusal := unlessHeld s (processHead onAllOff)

/-- STATUS (R187). -/
def execStatus (s : State) : Host.Outcome State Fault Refusal := unlessHeld s (processHead onStatus)

/-- SECTION (R188). -/
def execSectionRequest (s : State) : Host.Outcome State Fault Refusal := unlessHeld s (processHead onSection)

/-- ACK (R190). -/
def execAck (s : State) : Host.Outcome State Fault Refusal := unlessHeld s (processHead onAck)

/-- RELOAD (R181). -/
def execReload (s : State) : Host.Outcome State Fault Refusal := unlessHeld s (processHead onReload)

/-- BAD_MESSAGE (R186). -/
def execBadMessage (s : State) : Host.Outcome State Fault Refusal := unlessHeld s (processHead onBad)

/-! ### The section report -/

/-- The first entry after the last key placed (R188). -/
def State.nextReported (s : State) (last : Option Nat) : Option MapEntry :=
  match last with
  | none => s.map.entries.head?
  | some k => s.map.entries.find? fun e => decide (k < e.key)

/-- SECTION_ENTRY_PLACED: a running report places its next entry, or a SECTION_END with its count and stops, when the out
FIFO has a free place and no message waits at the head of the in FIFO for space (R184, R188). -/
def placeSection (s : State) : State :=
  match s.panel.report with
  | none => s
  | some rep =>
    if s.panel.outFifo.length < Config.fifoLimit ∧ s.headWaits = false then
      match s.nextReported rep.lastKey with
      | some e =>
        place (.sectionEntry s.panel.reportNumber e)
          { s with panel := { s.panel with report := some { lastKey := some e.key, count := rep.count + 1 } } }
      | none =>
        place (.sectionEnd s.panel.reportNumber rep.count) { s with panel := { s.panel with report := none } }
    else s

/-- SECTION_ENTRY_PLACED. -/
def execSectionEntryPlaced (s : State) : Host.Outcome State Fault Refusal := unlessHeld s placeSection

/-- The running report places records while it may, `fuel` of them at most (R184). -/
def placeSections : Nat → State → State
  | 0, s => s
  | fuel + 1, s => placeSections fuel (placeSection s)

/-! ### The transfer -/

/-- The message moved in is offered to the in FIFO, an IDLE is not; a full FIFO drops it with PANEL_OVERRUN (R182,
R183). -/
def offerMessage (m : Octets) (s : State) : State :=
  if readMessage m = .idle then s
  else if s.panel.inFifo.length < Config.fifoLimit then
    { s with panel := { s.panel with inFifo := s.panel.inFifo ++ [m] } }
  else raise .panelOverrun s

/-- The record the transfer moves out: the oldest, or IDLE, with the free space of the in FIFO and the more-records flag as
they stood (R182). -/
def State.outgoing (s : State) : Octets :=
  let free := Config.fifoLimit - s.panel.inFifo.length
  match s.panel.outFifo with
  | [] => idleRecord free
  | r :: rest => r.bytes free (!rest.isEmpty)

/-- A complete transfer of eight bytes each way (R182). -/
def transfer (m : Octets) (s : State) : State :=
  offerMessage m { s with panel := { s.panel with lastSent := some s.outgoing, outFifo := s.panel.outFifo.tail } }

/-- PANEL_TRANSFER_ABORTED: no message is taken and no record removed; it is sent again, whole, at the next transfer
(R182). -/
def execPanelTransferAborted (s : State) : Host.Outcome State Fault Refusal := unlessHeld s id

end Sys2Proof.Machine
end

