-- ==== Sys2Proof/Machine/Clocked.lean ====
section
/-!
DEFINITION. The steps the part takes by itself once they have come due, and the commands that find them completed: every command that
brings time, a frame, a message or the end of a read.

A frame, a boundary and a message bring about further steps, each a command of its own whose order among the other such commands the
sender chooses. None of them is left undone: before anything else reaches the part from outside it completes whatever has come due and
has not been commanded, in the order below (DESIGN CHOICE, assumption 1).
-/

namespace Sys2Proof.Machine

/-- The steps of a frame: the end of a baseline capture, the detectors that reached their counts, the end of an onset. -/
def settleFrame (s : State) : State := onsetEnd (fireAll (captureComplete s))

/-- The settings that have met a boundary are taken (R185; DESIGN CHOICE, assumption 7). -/
def takeDue (s : State) : State := takeRanks (takeKey (takeTuning (takeTranspose s)))

/-- The steps of the claim timers, rank by rank (R105, R107, R108). -/
def settleRanks (s : State) : State :=
  let s := allRanks.foldl (fun s r => claimConfirm r s) s
  let s := allRanks.foldl (fun s r => localResolution r s) s
  allRanks.foldl (fun s r => staleClaim r s) s

/-- The steps of a boundary. -/
def settleBoundary (s : State) : State :=
  let s := sensorLost (rootSettled s)
  let s := allEight.foldl (fun s st => stationExpiry st s) s
  let s := settleRanks (takeDue s)
  rosterExpiry (listenOnlyEnd (decayExpiry (joiningComplete s)))

/-- The messages that can be processed, then the records a running section report may place (R183, R184). -/
def settlePanel (s : State) : State := placeSections Config.fifoLimit (processMessages s.panel.inFifo.length s)

/-- Everything that has come due, and nothing in power-on reset (R175). -/
def settle (s : State) : State :=
  if s.power.resetHeld then s else settlePanel (settleBoundary (settleFrame s))

/-- A command from outside: taken once everything due is completed, and not at all in power-on reset (R175; DESIGN CHOICE,
assumption 1). -/
def whenSettled (s : State) (f : State → State) : Host.Outcome State Fault Refusal := unlessHeld s fun s => f (settle s)

/-! ### Time, frames from the sensor and messages -/

/-- SENSOR_FRAME (R18 to R23, R193). -/
def execSensorFrame (burst : List Byte) (s : State) : Host.Outcome State Fault Refusal := whenSettled s (takeBurst burst)

/-- AUDIO_BLOCK_BOUNDARY (R64, R65, R75). -/
def execAudioBlockBoundary (s : State) : Host.Outcome State Fault Refusal := whenSettled s boundary

/-- SAMPLE (R159 to R173). In power-on reset the Audio Port sends zeros, as its state then holds (R175). -/
def execSample (s : State) : Host.Outcome State Fault Refusal := whenSettled s renderSample

/-- PANEL_TRANSFER (R182, R183). -/
def execPanelTransfer (m : Octets) (s : State) : Host.Outcome State Fault Refusal := whenSettled s (transfer m)

/-! ### Reads of the flash -/

/-- IMAGE_LOAD_FAULT (R177). -/
def execImageLoadFault (flash : List Byte) (s : State) : Host.Outcome State Fault Refusal :=
  whenSettled s (imageLoadFault flash)

/-- IMAGE_LOAD_COMPLETE (R178). -/
def execImageLoadComplete (flash : List Byte) (s : State) : Host.Outcome State Fault Refusal :=
  whenSettled s (imageLoadComplete flash)

/-- DEFAULT_PROGRAM_READ_START (R74, R178). -/
def execDefaultProgramReadStart (flash : List Byte) (s : State) : Host.Outcome State Fault Refusal :=
  whenSettled s (defaultReadStart flash)

/-- PROGRAM_READ_COMPLETE (R72, R180). -/
def execProgramReadComplete (flash : List Byte) (s : State) : Host.Outcome State Fault Refusal :=
  whenSettled s (programReadComplete flash)

/-! ### The Section Line -/

/-- TRANSMIT_START (R151, R152). -/
def execTransmitStart (s : State) : Host.Outcome State Fault Refusal := whenSettled s transmitStart

/-- ARBITRATION_LOST (R153). -/
def execArbitrationLost (winner : Byte) (s : State) : Host.Outcome State Fault Refusal :=
  whenSettled s (arbitrationLost winner)

/-- BIT_ERROR (R154). -/
def execBitError (s : State) : Host.Outcome State Fault Refusal := whenSettled s bitError

/-- OWN_FRAME_COMPLETE (R155). -/
def execOwnFrameComplete (s : State) : Host.Outcome State Fault Refusal := whenSettled s ownFrameComplete

/-- LINE_FRAME_BROKEN (R142, R143). -/
def execLineFrameBroken (bits : List Bool) (s : State) : Host.Outcome State Fault Refusal :=
  whenSettled s (lineFrameBroken bits)

/-- FRAME_DISCARDED (R143, R195). -/
def execFrameDiscarded (frame : List Byte) (s : State) : Host.Outcome State Fault Refusal :=
  whenSettled s (frameDiscarded frame)

/-- DUPLICATE_FRAME (R131, R140). -/
def execDuplicateFrame (frame : List Byte) (s : State) : Host.Outcome State Fault Refusal :=
  whenSettled s (duplicateFrame frame)

/-- PEER_NOTE_START (R125, R129). -/
def execPeerNoteStart (frame : List Byte) (s : State) : Host.Outcome State Fault Refusal :=
  whenSettled s (peerNoteStart frame)

/-- PEER_NOTE_END (R126). -/
def execPeerNoteEnd (frame : List Byte) (s : State) : Host.Outcome State Fault Refusal := whenSettled s (peerNoteEnd frame)

/-- PEER_ROSTER (R127, R129). -/
def execPeerRoster (frame : List Byte) (s : State) : Host.Outcome State Fault Refusal := whenSettled s (peerRoster frame)

/-- PEER_CLAIM (R111, R115, R128). -/
def execPeerClaim (frame : List Byte) (s : State) : Host.Outcome State Fault Refusal := whenSettled s (peerClaim frame)

/-- PEER_HELD (R110, R128). -/
def execPeerHeld (frame : List Byte) (s : State) : Host.Outcome State Fault Refusal := whenSettled s (peerHeld frame)

/-! ### Steps of a boundary that touch the pitch

A root that has settled is adopted before them, so that none of them comes in the middle of a pitch evaluation (R75, R76, R81). The
other steps of a boundary change nothing the rest of the evaluation reads. -/

/-- TRANSPOSE_TAKEN (R11, R13, R185). -/
def execTransposeTaken (s : State) : Host.Outcome State Fault Refusal :=
  unlessHeld s fun s => takeTranspose (rootSettled s)

/-- TUNING_TAKEN (R88, R185). -/
def execTuningTaken (s : State) : Host.Outcome State Fault Refusal := unlessHeld s fun s => takeTuning (rootSettled s)

/-- RANKS_TAKEN (R98, R185). -/
def execRanksTaken (s : State) : Host.Outcome State Fault Refusal := unlessHeld s fun s => takeRanks (rootSettled s)

/-- LOCAL_RESOLUTION (R108). -/
def execLocalResolution (r : Fin 3) (s : State) : Host.Outcome State Fault Refusal :=
  unlessHeld s fun s => localResolution r (rootSettled s)

end Sys2Proof.Machine
end

