-- ==== Sys2Proof/Machine/Dispatch.lean ====
section
/-!
DEFINITION. One arm per command, each one direct call of its meaning.
-/

namespace Sys2Proof.Machine

def exec (i : Instr) (s : State) : Host.Outcome State Fault Refusal :=
  match i with
  | .powerOnReset => Sys2Proof.Machine.execPowerOnReset s
  | .resetRelease straps => Sys2Proof.Machine.execResetRelease straps s
  | .imageLoadFault flash => Sys2Proof.Machine.execImageLoadFault flash s
  | .imageLoadComplete flash => Sys2Proof.Machine.execImageLoadComplete flash s
  | .programReadComplete flash => Sys2Proof.Machine.execProgramReadComplete flash s
  | .sensorFrame burst => Sys2Proof.Machine.execSensorFrame burst s
  | .baselineCaptureComplete => Sys2Proof.Machine.execBaselineCaptureComplete s
  | .onsetEnd => Sys2Proof.Machine.execOnsetEnd s
  | .sensorLost => Sys2Proof.Machine.execSensorLost s
  | .detectorFire => Sys2Proof.Machine.execDetectorFire s
  | .audioBlockBoundary => Sys2Proof.Machine.execAudioBlockBoundary s
  | .rootSettled => Sys2Proof.Machine.execRootSettled s
  | .transposeTaken => Sys2Proof.Machine.execTransposeTaken s
  | .tuningTaken => Sys2Proof.Machine.execTuningTaken s
  | .keyTaken => Sys2Proof.Machine.execKeyTaken s
  | .ranksTaken => Sys2Proof.Machine.execRanksTaken s
  | .staleClaim r => Sys2Proof.Machine.execStaleClaim r s
  | .claimConfirm r => Sys2Proof.Machine.execClaimConfirm r s
  | .localResolution r => Sys2Proof.Machine.execLocalResolution r s
  | .stationExpiry st => Sys2Proof.Machine.execStationExpiry st s
  | .joiningComplete => Sys2Proof.Machine.execJoiningComplete s
  | .decayTimerExpiry => Sys2Proof.Machine.execDecayTimerExpiry s
  | .listenOnlyEnd => Sys2Proof.Machine.execListenOnlyEnd s
  | .rosterTimerExpiry => Sys2Proof.Machine.execRosterTimerExpiry s
  | .sample => Sys2Proof.Machine.execSample s
  | .transmitStart => Sys2Proof.Machine.execTransmitStart s
  | .arbitrationLost winner => Sys2Proof.Machine.execArbitrationLost winner s
  | .bitError => Sys2Proof.Machine.execBitError s
  | .ownFrameComplete => Sys2Proof.Machine.execOwnFrameComplete s
  | .lineFrameBroken bits => Sys2Proof.Machine.execLineFrameBroken bits s
  | .frameDiscarded frame => Sys2Proof.Machine.execFrameDiscarded frame s
  | .duplicateFrame frame => Sys2Proof.Machine.execDuplicateFrame frame s
  | .peerNoteStart frame => Sys2Proof.Machine.execPeerNoteStart frame s
  | .peerNoteEnd frame => Sys2Proof.Machine.execPeerNoteEnd frame s
  | .peerRoster frame => Sys2Proof.Machine.execPeerRoster frame s
  | .peerClaim frame => Sys2Proof.Machine.execPeerClaim frame s
  | .peerHeld frame => Sys2Proof.Machine.execPeerHeld frame s
  | .panelTransfer message => Sys2Proof.Machine.execPanelTransfer message s
  | .panelTransferAborted => Sys2Proof.Machine.execPanelTransferAborted s
  | .program => Sys2Proof.Machine.execProgram s
  | .transpose => Sys2Proof.Machine.execTranspose s
  | .tuning => Sys2Proof.Machine.execTuning s
  | .key => Sys2Proof.Machine.execKey s
  | .ranks => Sys2Proof.Machine.execRanks s
  | .allOff => Sys2Proof.Machine.execAllOff s
  | .status => Sys2Proof.Machine.execStatus s
  | .sectionRequest => Sys2Proof.Machine.execSectionRequest s
  | .ack => Sys2Proof.Machine.execAck s
  | .reload => Sys2Proof.Machine.execReload s
  | .badMessage => Sys2Proof.Machine.execBadMessage s
  | .sectionEntryPlaced => Sys2Proof.Machine.execSectionEntryPlaced s
  | .defaultProgramReadStart flash => Sys2Proof.Machine.execDefaultProgramReadStart flash s

end Sys2Proof.Machine
end

