-- ==== Sys2Proof/Safety.lean ====
section
/-!
DEFINITION. What the statements speak of: a running part, a part with nothing due, the conditions of the commands, a legato change, a
release, and the laws the manual states of every state
(the bold sentences of R51, R71, R86, R89, R92, R99, R112, R117, R123, R145, R152, R156, R172), as decidable propositions. A law is stated
together with what it rests on, so that one step keeps it from any state that has it.
-/

namespace Sys2Proof

/-- A command from outside the part: time, a frame of the sensor or of the line, the end of a read, a panel transfer. The others are
steps that come due, messages at the head of the in FIFO, the reset's two commands and a transfer that moves nothing. -/
def Instr.fromOutside : Instr → Bool
  | .sensorFrame _ | .audioBlockBoundary | .sample | .panelTransfer _ => true
  | .imageLoadFault _ | .imageLoadComplete _ | .defaultProgramReadStart _ | .programReadComplete _ => true
  | .transmitStart | .arbitrationLost _ | .bitError | .ownFrameComplete => true
  | .lineFrameBroken _ | .frameDiscarded _ | .duplicateFrame _ => true
  | .peerNoteStart _ | .peerNoteEnd _ | .peerRoster _ | .peerClaim _ | .peerHeld _ => true
  | _ => false

/-- A step of a boundary that touches the pitch, and so completes a due root adoption first (R75, R76, R81; assumption 9). -/
def Instr.adoptsRoot : Instr → Bool
  | .transposeTaken | .tuningTaken | .ranksTaken | .localResolution _ => true
  | _ => false

namespace Machine

/-- Power-on reset is released, so that commands are taken (R175). -/
abbrev State.Running (s : State) : Prop := s.power.resetHeld = false

/-! ### Nothing due -/

/-- No step of a frame is due: no capture to complete, no detector to fire, no onset to end. -/
abbrev State.FrameQuiet (s : State) : Prop :=
  (s.breath.baseline = none → s.breath.captureCount < Config.captureFrames) ∧
  (∀ d : Fin 4, s.firing d = none) ∧
  (s.breath.articulation = .onset → s.breath.onsetEnding = false)

/-- No claim timer of a rank has run out, and no local resolution is due. -/
abbrev State.RankQuiet (s : State) (r : Fin 3) : Prop :=
  ((s.rank r).stage = .window → (s.rank r).windowAge < Config.windowAge) ∧
  ((s.rank r).stage = .queued → (s.rank r).queuedAge < Config.staleAge) ∧
  ((s.rank r).stage = .localPending → (s.rank r).localDue = false)

/-- No step of a boundary is due. -/
abbrev State.BoundaryQuiet (s : State) : Prop :=
  s.pitch.settleCount < Config.rootSettle ∧
  (s.sensor.receiver = .receiving → s.sensor.missingTimer < Config.lossBlocks) ∧
  (∀ st : Fin 8, (s.map.stations.get st).present = true → (s.map.stations.get st).age < Config.expiryAge) ∧
  (s.panel.transposeDue = false ∧ s.panel.tuningDue = false ∧ s.panel.keyDue = false ∧ s.panel.ranksDue = false) ∧
  (∀ r : Fin 3, s.RankQuiet r) ∧
  (s.line.state = .joining → s.line.joiningTimer < Config.joiningBlocks) ∧
  (s.line.state = .listenOnly → s.line.decayTimer < Config.decayBlocks ∧ s.line.errorCounter ≠ 0) ∧
  (s.line.state = .active → ∀ n ∈ s.line.rosterTimer, n < Config.rosterBlocks)

/-- No message can be processed and no record of a section report can be placed. -/
abbrev State.PanelQuiet (s : State) : Prop :=
  s.headMessage = none ∧
  (s.panel.report = none ∨ Config.fifoLimit ≤ s.panel.outFifo.length ∨ s.headWaits = true)

/-- Nothing has come due (assumption 1). -/
abbrev State.Quiet (s : State) : Prop := s.FrameQuiet ∧ s.BoundaryQuiet ∧ s.PanelQuiet

/-! ### Conditions of the commands -/

/-- A good frame of a peer, of this kind, arrives while the line receives (R121, R124, R142). -/
abbrev State.Hears (s : State) (frame : List Byte) (kind : Nat) : Prop :=
  ∃ f, verdict frame = .good f ∧ s.line.state ≠ .disabled ∧ f.station ≠ s.power.station ∧ f.payload.kind = kind

/-- The condition of a command holds: the arrival it names is one the part takes, or the step it names has come due (spec 95). Where
it does not hold the command is nothing (assumption 3). -/
def State.Meets (s : State) : Instr → Prop
  | .powerOnReset | .audioBlockBoundary | .sample | .panelTransfer _ | .panelTransferAborted => True
  | .resetRelease _ => s.power.resetHeld = true
  | .imageLoadFault flash => s.loadingImage = true ∧ loadImage flash = none
  | .imageLoadComplete flash => s.loadingImage = true ∧ loadImage flash ≠ none
  | .defaultProgramReadStart flash => s.loadingImage = true ∧ ∃ img, loadImage flash = some img ∧ img.defaultNumber ≠ none
  | .programReadComplete _ => (∃ b n, s.loader.reading = some (.programRead b n)) ∧ s.image? ≠ none
  | .sensorFrame burst => readBurst burst ≠ none
  | .baselineCaptureComplete => s.breath.baseline = none ∧ Config.captureFrames ≤ s.breath.captureCount
  | .onsetEnd => s.breath.articulation = .onset ∧ s.breath.onsetEnding = true
  | .sensorLost => s.sensor.receiver = .receiving ∧ Config.lossBlocks ≤ s.sensor.missingTimer
  | .detectorFire => ∃ d : Fin 4, s.firing d ≠ none
  | .rootSettled => Config.rootSettle ≤ s.pitch.settleCount
  | .transposeTaken => s.panel.transposeDue = true
  | .tuningTaken => s.panel.tuningDue = true
  | .keyTaken => s.panel.keyDue = true
  | .ranksTaken => s.panel.ranksDue = true
  | .staleClaim r => (s.rank r).stage = .queued ∧ Config.staleAge ≤ (s.rank r).queuedAge
  | .claimConfirm r => (s.rank r).stage = .window ∧ Config.windowAge ≤ (s.rank r).windowAge
  | .localResolution r => (s.rank r).stage = .localPending ∧ (s.rank r).localDue = true
  | .stationExpiry st => (s.map.stations.get st).present = true ∧ Config.expiryAge ≤ (s.map.stations.get st).age
  | .joiningComplete => s.line.state = .joining ∧ Config.joiningBlocks ≤ s.line.joiningTimer
  | .decayTimerExpiry => s.line.state = .listenOnly ∧ Config.decayBlocks ≤ s.line.decayTimer
  | .listenOnlyEnd => s.line.state = .listenOnly ∧ s.line.errorCounter = 0
  | .rosterTimerExpiry => s.line.state = .active ∧ ∃ n, s.line.rosterTimer = some n ∧ Config.rosterBlocks ≤ n
  | .transmitStart => s.line.state = .active ∧ s.line.queue ≠ [] ∧ s.line.underWay = none
  | .arbitrationLost winner => ∃ p, s.line.underWay = some p ∧ winner.toNat < (headerByte s.power.station p).toNat
  | .bitError | .ownFrameComplete => s.line.underWay ≠ none
  | .lineFrameBroken bits => s.line.state ≠ .disabled ∧ readBits bits = .broken
  | .frameDiscarded frame => s.line.state ≠ .disabled ∧ verdict frame = .discard
  | .duplicateFrame frame => ∃ f, verdict frame = .good f ∧ s.line.state ≠ .disabled ∧ f.station = s.power.station
  | .peerNoteStart frame => s.Hears frame 1
  | .peerNoteEnd frame => s.Hears frame 2
  | .peerHeld frame => s.Hears frame 3
  | .peerClaim frame => s.Hears frame 4
  | .peerRoster frame => s.Hears frame 5
  | .program => ∃ n, s.headMessage = some (.program n)
  | .transpose => ∃ v, s.headMessage = some (.transpose v)
  | .tuning => ∃ v, s.headMessage = some (.tuning v)
  | .key => ∃ k scale, s.headMessage = some (.key k scale)
  | .ranks => ∃ set, s.headMessage = some (.ranks set)
  | .allOff => s.headMessage = some .allOff
  | .status => s.headMessage = some .status
  | .sectionRequest => s.headMessage = some .sectionReport
  | .ack => ∃ listed, s.headMessage = some (.ack listed)
  | .reload => s.headMessage = some .reload
  | .badMessage => ∃ kind, s.headMessage = some (.unknown kind)
  | .sectionEntryPlaced => s.panel.report ≠ none ∧ s.panel.outFifo.length < Config.fifoLimit ∧ s.headWaits = false

/-! ### Legato and release -/

/-- What a lead-note change does to a SOUNDING lead before any rank plans (R56, R116): the lead's slot `u`, with voice `v`, on the new
note with its new base target and nothing else of it changed; its NOTE_START admitted; every rank's claim abandoned with its CLAIM out
of the queue, its refused list empty, its position 0 and its slot kept; nothing else changed. -/
abbrev State.LegatoTo (s t : State) (u : Fin 8) (v : Voice) (note : Nat) : Prop :=
  t.slots = s.slots.set u { s.slot u with voice := some { v with note := note, baseTarget := 1000 * note } } ∧
  (∀ r : Fin 3, t.enabled r = s.enabled r ∧ t.rank r = { s.rank r with
    stage := .idle, claim := none, refused := [], position := 0, localDue := false }) ∧
  (s.line.state = .active → ∃ y ∈ t.line.queue, y.record = .noteStart u note v.role.onLine s.breath.levelClass) ∧
  (let l := s.line.enqueue (.noteStart u note v.role.onLine s.breath.levelClass)
   t.line = { l with queue := l.queue.filter fun y => !(allRanks.any fun r => y.record.isClaim r) }) ∧
  t = { s with slots := t.slots, harmony := { s.harmony with ranks := t.harmony.ranks }, line := t.line }

/-- Every enabled rank plans from position 0 in rank order, retargeting the slot it holds (R100, R116). -/
abbrev State.planned (s : State) : State :=
  ([0, 1, 2] : List (Fin 3)).foldl (fun y r => if y.enabled r = true then plan r 0 true y else y) s

/-- What the release of a note leaves of the voices, the ranks and the queue (R59, R60, R117): every PROVISIONAL or SOUNDING slot
RELEASING in NORMAL mode, fading slots with their fades and FREE ones as they were; no NOTE_START of a released tag queued, and in ACTIVE
the NOTE_END of one that is announced or being announced; every rank IDLE with nothing kept and its CLAIM out of the queue. -/
abbrev State.ReleasedTo (s t : State) : Prop :=
  (∀ u : Fin 8, t.slot u = { s.slot u with voice := t.voice u } ∧
    (s.voice u = none → t.voice u = none) ∧
    (∀ v, s.voice u = some v → v.releasing = true → t.voice u = some v) ∧
    (∀ v, s.voice u = some v → v.releasing = false → t.voice u = some { v with state := .releasingNormal } ∧
      (∀ y ∈ t.line.queue, y.record.isNoteStart u = false) ∧
      (s.line.state = .active → (s.slot u).announced = true ∨ s.line.announces u = true →
        ∃ y ∈ t.line.queue, y.record = .noteEnd u))) ∧
  (∀ r : Fin 3, (t.rank r).stage = .idle ∧ (t.rank r).claim = none ∧ (t.rank r).slot = none ∧
    (t.rank r).position = 0 ∧ (t.rank r).refused = []) ∧
  (∀ y ∈ t.line.queue, ∀ r : Fin 3, y.record.isClaim r = false) ∧
  (s.line.state ≠ .active → t.line.queue = s.line.queue.filter fun y =>
    !(allRanks.any fun r => y.record.isClaim r) &&
      !(allEight.any fun u => y.record.isNoteStart u && (s.voice u).any Voice.active)) ∧
  t.harmony = { s.harmony with ranks := t.harmony.ranks } ∧
  t.line = { s.line with queue := t.line.queue, heldDropped := t.line.heldDropped }

/-! ### Allocation -/

/-- The slot an allocation takes (R52): the lowest-numbered FREE one; with none FREE, of the RELEASING ones the one with the lowest gain
current, and of those the lowest number. -/
abbrev State.Takes (s : State) (u : Fin 8) : Prop :=
  (s.voice u = none ∧ ∀ w, w < u → s.voice w ≠ none) ∨
  ((∀ w, s.voice w ≠ none) ∧ (∃ v ∈ s.voice u, v.releasing = true) ∧
    ∀ w, ∀ x ∈ s.voice w, x.releasing = true →
      (s.slot u).gainCurrent < (s.slot w).gainCurrent ∨
        ((s.slot u).gainCurrent = (s.slot w).gainCurrent ∧ u ≤ w))

/-! ### The Section Map -/

/-- The Section Map and the station table (R120, R122, R123): entries in strict station and tag order, none bearing the own
number, none of an absent station, every field in its range; the own record absent with age 0; ages at most 200; nothing held
while power-on reset is asserted. -/
abbrev State.SectionMapOk (s : State) : Prop :=
  (s.power.resetHeld = true → s.map = SectionMap.reset) ∧
  s.map.entries.Pairwise (fun a b => a.key < b.key) ∧
  (∀ e ∈ s.map.entries, e.station ≠ s.power.station ∧ (s.map.stations.get e.station).present = true ∧
    e.note ≤ 127 ∧ e.levelClass ≤ 3) ∧
  s.map.stations.get s.power.station = { present := false, age := 0 } ∧
  (∀ st : Fin 8, (s.map.stations.get st).age ≤ Config.expiryAge)

/-! ### The Section Line -/

/-- The transmit queue (R145, R151): class order, at most 16 records, at most one NOTE record per tag, one CLAIM per rank and one
ROSTER, abandon counts 0..2, at most one record marked as under way. -/
abbrev QueueOk (q : List Queued) : Prop :=
  q.Pairwise (fun a b => a.record.cls ≤ b.record.cls) ∧
  q.length ≤ Config.queueLimit ∧
  (∀ t : Fin 8, q.countP (fun y => y.record.isNote t) ≤ 1) ∧
  (∀ r : Fin 3, q.countP (fun y => y.record.isClaim r) ≤ 1) ∧
  q.countP (fun y => y.record.isRoster) ≤ 1 ∧
  (∀ y ∈ q, y.abandons < Config.abandonLimit) ∧
  q.countP (fun y => y.underWay) ≤ 1

/-- The Section Line Controller (R136, R138, R145, R152, R156): the queue's law; outside ACTIVE nothing is queued and no frame is
under way; ACTIVE only while the error counter is below 96; no error before the first ACTIVE; DISABLED until the start-up load
has ended. -/
abbrev State.LineOk (s : State) : Prop :=
  QueueOk s.line.queue ∧
  (s.line.state ≠ .active → s.line.queue = [] ∧ s.line.underWay = none) ∧
  (s.line.underWay = none → ∀ y ∈ s.line.queue, y.underWay = false) ∧
  (s.line.state = .active → s.line.errorCounter < Config.errorLimit) ∧
  (s.line.state = .disabled ∨ s.line.state = .joining → s.line.errorCounter = 0) ∧
  (s.loader.startUpDone = false → s.line.state = .disabled) ∧
  s.line.errorCounter ≤ Config.errorMax

/-! ### The Harmony Ranks -/

/-- The claim fields against the stage (R95): present in QUEUED, WINDOW, LOCAL_PENDING and SOUNDING, absent in IDLE and
EXHAUSTED; a refused list of at most three notes, none twice (R117). -/
abbrev RankOk (k : Rank) : Prop :=
  (k.claim = none ↔ k.stage = .idle ∨ k.stage = .exhausted) ∧
  k.refused.Nodup ∧ k.refused.length ≤ Config.refusedLimit

/-- The Harmony Ranks (R95, R99, R117): every rank's fields; distinct numbers for the outstanding claims; and, whenever the
articulation is not SOUNDING, no lead slot, no claim and empty refused lists. -/
abbrev State.HarmonyOk (s : State) : Prop :=
  (∀ r : Fin 3, RankOk (s.rank r)) ∧
  (∀ q r : Fin 3, q ≠ r → (s.rank q).outstanding = true → (s.rank r).outstanding = true →
    (s.rank q).claim.map Claim.number ≠ (s.rank r).claim.map Claim.number) ∧
  (s.breath.articulation ≠ .sounding →
    s.leadTag = none ∧ ∀ r : Fin 3, (s.rank r).claim = none ∧ (s.rank r).refused = [])

/-! ### The banks and the voices -/

/-- A bank is PENDING. -/
def BankState.waits : BankState → Bool
  | .pending _ _ => true
  | _ => false

/-- A program read in flight is the read of a bank that is LOADING with its number. -/
def State.readAgrees (s : State) : ReadInFlight → Bool
  | .imageLoad => true
  | .programRead b n => decide (s.bank b = .loading n)

/-- A bank that a voice references holds a program, and so is neither EMPTY nor LOADING; a PENDING bank is referenced (R71). -/
abbrev State.BankOk (s : State) (b : BankId) : Prop :=
  (s.referenced b = true → (s.bank b).held?.isSome = true) ∧ ((s.bank b).waits = true → s.referenced b = true)

/-- The Program Banks (R67, R71, R74, R175): both banks' law; the bank whose program is read is LOADING with its number; without an
installed image no slot is in use and no bank holds a program; and while power-on reset is asserted no image is installed. -/
abbrev State.BanksOk (s : State) : Prop :=
  s.BankOk .bankA ∧ s.BankOk .bankB ∧
  (∀ x ∈ s.loader.reading, s.readAgrees x = true) ∧
  (s.image? = none → (∀ t : Fin 8, s.voice t = none) ∧ s.banks.a.held? = none ∧ s.banks.b.held? = none) ∧
  (s.power.resetHeld = true → s.image? = none)

/-- The voice a rank's slot field names and the stage it stands in (R57, R95): a PROVISIONAL or SOUNDING voice of the rank's role on
its claim note, SOUNDING in the stage SOUNDING and PROVISIONAL before. -/
abbrev State.RankVoice (s : State) (r : Fin 3) (t : Fin 8) : Prop :=
  (∃ v ∈ s.voice t, v.role = .harmony r ∧ v.active = true ∧ (s.rank r).claim.map Claim.note = some v.note ∧
    (v.state = .sounding ↔ (s.rank r).stage = .sounding)) ∧ s.enabled r = true

/-- The Voice Table with the ranks (R51, R95, R97, R101, R112): beside the laws of the banks and the ranks, at most one LEAD slot that
is not RELEASING, and that one SOUNDING; no PROVISIONAL or SOUNDING slot while the articulation is not SOUNDING; a rank holds a claim
exactly while it names a slot, and the slots so named are all the harmony slots that are not RELEASING; and none of them is on a note
that the map holds as a LEAD entry. -/
abbrev State.VoicesOk (s : State) : Prop :=
  s.BanksOk ∧ s.HarmonyOk ∧
  (∀ t : Fin 8, ∀ v ∈ s.voice t, v.role = .lead → v.active = true →
    v.state = .sounding ∧ ∀ u : Fin 8, ∀ w ∈ s.voice u, w.role = .lead → w.active = true → u = t) ∧
  (s.breath.articulation ≠ .sounding → ∀ t : Fin 8, ∀ v ∈ s.voice t, v.releasing = true) ∧
  (∀ r : Fin 3, (s.rank r).claim.isSome = (s.rank r).slot.isSome ∧ ∀ t ∈ (s.rank r).slot, s.RankVoice r t) ∧
  (∀ t : Fin 8, ∀ v ∈ s.voice t, ∀ r, v.role = .harmony r → v.active = true →
    (s.rank r).slot = some t ∧ ∀ e ∈ s.map.entries, e.role = .lead → e.note ≠ v.note)

/-! ### Pitch -/

/-- The clamps of a program that pitch rests on (R68). -/
abbrev Program.PitchOk (p : Program) : Prop := p.strength ≤ 16 ∧ 1 ≤ p.slew ∧ p.slew ≤ 50 ∧ p.portamento ≤ 2000

/-- Every program a bank holds is within its clamps. -/
abbrev BankState.PitchOk (b : BankState) : Prop := ∀ h ∈ b.held?, h.params.PitchOk

/-- The pitch fields of a voice (4.1, R86, R89, R92). -/
abbrev Voice.PitchOk (v : Voice) : Prop :=
  v.note ≤ 127 ∧
  (0 ≤ v.baseCurrent ∧ v.baseCurrent ≤ 127000) ∧ v.baseTarget = 1000 * (v.note : Int) ∧
  (-500 ≤ v.justCurrent ∧ v.justCurrent ≤ 500) ∧ (-500 ≤ v.justTarget ∧ v.justTarget ≤ 500) ∧
  v.pitch ≤ 127999 ∧ v.increment = incrementOf v.pitch ∧ v.increment < 2 ^ 31

/-- Every slot's pitch fields within their ranges, with the just table, the programs and the lead note they come from (R12, R83,
R86, R89, R92). -/
abbrev State.PitchOk (s : State) : Prop :=
  (∀ t : Fin 8, ∀ v ∈ s.voice t, v.PitchOk) ∧
  (∀ x ∈ s.justTable, -500 ≤ x ∧ x ≤ 500) ∧
  s.banks.a.PitchOk ∧ s.banks.b.PitchOk ∧
  s.resolver.leadNote ≤ 127

/-! ### Ports and counters -/

/-- The six counters of STATUS at most 65535, both FIFOs at most 8 deep, samples within 24 bits and one frame's two channels alike,
the live settings and the settings waiting within their ranges (R172, R183, R184, R185, R192). -/
abbrev State.PortsOk (s : State) : Prop :=
  (s.sensor.missedFrames ≤ Config.counterMax ∧ s.resolver.unresolvedFrames ≤ Config.counterMax ∧
    s.line.badFrames ≤ Config.counterMax ∧ s.line.recordsDropped ≤ Config.counterMax ∧
    s.line.heldDropped ≤ Config.counterMax ∧ s.audio.clipCount ≤ Config.counterMax) ∧
  (s.panel.inFifo.length ≤ Config.fifoLimit ∧ s.panel.outFifo.length ≤ Config.fifoLimit) ∧
  (-8388608 ≤ s.audio.engineSample ∧ s.audio.engineSample ≤ 8388607) ∧
  s.audio.sent.left = s.audio.sent.right ∧
  (-12 ≤ s.resolver.transpose ∧ s.resolver.transpose ≤ 12) ∧
  (-500 ≤ s.pitch.tuning ∧ s.pitch.tuning ≤ 500) ∧
  (∀ v ∈ s.panel.waitTranspose, -12 ≤ v ∧ v ≤ 12) ∧
  (∀ v ∈ s.panel.waitTuning, -500 ≤ v ∧ v ≤ 500) ∧
  (s.harmony.key < 12 ∧ s.harmony.scale ≠ 0) ∧
  (∀ x ∈ s.panel.waitKey, x.1 < 12 ∧ x.2 ≠ 0)

end Machine

end Sys2Proof
end

