-- ==== Sys2Proof/Certificates/Slice0/Obligations.lean ====
section
/-!
DEFINITION. The statements for the provers. Each is a proposition about the commands of the part, read from the numbered rules of
spec/; OBLIGATIONS.json names the rules. Where a statement rests on a choice of the model its docstring names the log entry.
-/

open Sys2Proof Sys2Proof.Machine

/-! ### The machine -/

/-- A step with a command at the front of the queue is that command's meaning on the state with the queue's rest. -/
def Obligations.StepRunsFrontCommand : Prop :=
  ∀ (s : State) (c : Instr) (rest : List Instr), s.pending = c :: rest → step s = exec c { s with pending := rest }

/-- What has come due is completed first (the model's choice, assumption 1): completing it leaves nothing due in a running part; a step
on an empty queue completes it and, where nothing is due, idles; and every command from outside (time, a frame of the sensor or the
line, the end of a read, a panel transfer) acts on the state as it stands once it is completed. -/
def Obligations.DueStepsComeFirst : Prop :=
  (∀ s : State, s.Running → (settle s).Running ∧ (settle s).Quiet) ∧
  (∀ s : State, s.pending = [] → step s = .next (settle s)) ∧
  (∀ s : State, s.pending = [] → s.Quiet → step s = .next s) ∧
  (∀ (s : State) (c : Instr), c.fromOutside = true → exec c s = exec c (settle s))

/-- No command stops the part: it never faults and refuses none. None touches the commands waiting behind it, POWER_ON_RESET included
(the model's choice, assumption 2). While power-on reset is asserted no command but the two of the reset itself is taken (R175). A
command whose condition (State.Meets) does not hold leaves the state as it is where nothing is due; where something is, one from outside
leaves the state with that completed, and any other leaves the state as it is, but for a due root adoption, which the four steps that
touch the pitch complete (the model's choices, assumptions 1, 3 and 9). -/
def Obligations.EveryCommandCompletes : Prop :=
  (∀ (c : Instr) (s : State), ∃ t, exec c s = .next t ∧ t.pending = s.pending) ∧
  (∀ (c : Instr) (s : State), s.power.resetHeld = true → c ≠ .powerOnReset → (∀ p, c ≠ .resetRelease p) →
    exec c s = .next s) ∧
  (∀ (c : Instr) (s : State), s.Running → s.Quiet → ¬ s.Meets c → exec c s = .next s) ∧
  (∀ (c : Instr) (s : State), s.Running →
    (c.fromOutside = true → ¬ (settle s).Meets c → exec c s = .next (settle s)) ∧
    (c.fromOutside = false → ¬ s.Meets c → exec c s = .next (if c.adoptsRoot = true then rootSettled s else s)))

/-! ### Power-on and the image -/

/-- POWER_ON_RESET leaves every block at the power-on values of its chapter (R15, R36, R49, R66, R74, R82, R119, R133, R157,
R174, R192), the commands waiting kept (assumption 2); RESET_RELEASE reads the straps as the station number and begins the image
load, and nothing else changes (R175). -/
def Obligations.ResetClearsPartAndReadsStraps : Prop :=
  (∀ s : State, ∃ t, exec .powerOnReset s = .next t ∧ t.pending = s.pending ∧
    t.power.resetHeld = true ∧ t.loader.image = .idle ∧ t.loader.reading = none ∧
    t.sensor = { receiver := .awaiting, missingTimer := 0, lastFrame := none, missedFrames := 0 } ∧
    (t.resolver.previous = none ∧ t.resolver.stability = 0 ∧ t.resolver.taken = 60 ∧ t.resolver.octaveShift = 0 ∧
      t.resolver.transpose = 0 ∧ t.resolver.leadNote = 60 ∧ t.resolver.unresolvedFrames = 0) ∧
    (t.breath.baseline = none ∧ t.breath.captureCount = 0 ∧ t.breath.captureSum = 0 ∧ t.breath.articulation = .silent ∧
      t.breath.onsetCounter = 0 ∧ t.breath.onsetPeak = 0 ∧ t.breath.net = 0 ∧ t.breath.previousNet = 0 ∧
      t.breath.rise = 0 ∧ t.breath.level = 0 ∧ t.breath.levelClass = 0 ∧ t.breath.bend = 0) ∧
    (∀ d : Fin 4, (t.detectors.get d).hits = 0 ∧ (t.detectors.get d).armed = true) ∧
    (∀ u : Fin 8, t.slot u = { announced := false, gainCurrent := 0, gainTarget := 0, phase := 0, voice := none }) ∧
    (t.banks.a = .empty ∧ t.banks.b = .empty ∧ t.banks.selector = .bankA) ∧
    (t.pitch.root = none ∧ t.pitch.previousRoot = none ∧ t.pitch.settleCount = 0 ∧ t.pitch.tuning = 0) ∧
    (∀ r : Fin 3, (t.rank r).stage = .idle ∧ (t.rank r).claim = none ∧ (t.rank r).slot = none ∧ (t.rank r).position = 0 ∧
      (t.rank r).refused = []) ∧
    (t.harmony.counter = 0 ∧ t.harmony.master = true ∧ t.harmony.liveRanks = 7 ∧ t.harmony.key = 0 ∧
      t.harmony.scale = 4095) ∧
    (t.map.entries = [] ∧ ∀ st : Fin 8, t.map.stations.get st = { present := false, age := 0 }) ∧
    (t.line.state = .disabled ∧ t.line.joiningTimer = 0 ∧ t.line.decayTimer = 0 ∧ t.line.errorCounter = 0 ∧
      t.line.queue = [] ∧ t.line.rosterTimer = none ∧ t.line.badFrames = 0 ∧ t.line.recordsDropped = 0 ∧
      t.line.heldDropped = 0) ∧
    t.audio.clipCount = 0 ∧ t.masterGain = 0 ∧ t.audio.sent = { left := 0, right := 0 } ∧
    (t.panel.inFifo = [] ∧ t.panel.outFifo = [] ∧ t.panel.report = none ∧ t.panel.reportNumber = 0 ∧ t.attn = false)) ∧
  (∀ (s : State) (straps : BitVec 3), s.power.resetHeld = true →
    ∃ t, exec (.resetRelease straps) s = .next t ∧ t.power.resetHeld = false ∧ t.power.station.val = straps.toNat ∧
      t.loader.image = .loading ∧ t.loader.reading = some .imageLoad ∧
      t = { s with power := t.power, loader := { s.loader with image := t.loader.image, reading := t.loader.reading } })

/-- What faults an image (R177, spec 11.5): an identifier that is not 75, 66, 50, 56, a version that is not 1, a bad header CRC, a
kind omitted or listed twice, a length its kind does not allow, a bad CRC on any section but PROGRAMS. The load ends in FAULT with both
banks EMPTY, the event raised, the line in its state and a ROSTER admitted in ACTIVE (R74, R141, R177). Nothing else changes: a transpose
and the other live settings taken during the load stand, and a setting that still waits goes on waiting, which is the model's reading
(R15 does not say it; assumption 15, and assumption 26 for the lead note). -/
def Obligations.BadImageFaultsLoad : Prop :=
  ∀ (s : State) (flash : List Byte), s.Running → s.Quiet → s.loadingImage = true →
    (bytesFrom flash 0 4 ≠ [75, 66, 50, 56] ∨ bytesFrom flash 4 1 ≠ [1] ∨
      bytesFrom flash 68 2 ≠ crcBytes (bytesFrom flash 0 68) ∨
      (∃ k, 1 ≤ k ∧ k ≤ 9 ∧ ((imageDirectory flash).filter fun e => e.kind == k).length ≠ 1) ∨
      (∃ e ∈ imageDirectory flash, sectionLengthAllowed e.kind e.length = false) ∨
      (∃ k, 1 ≤ k ∧ k ≤ 9 ∧ k ≠ 8 ∧ crcGood (sectionBytes flash (imageDirectory flash) k) = false)) →
    ∃ t, exec (.imageLoadFault flash) s = .next t ∧ t.loader.image = .fault ∧ t.loader.reading = none ∧
      t.programCount = 0 ∧ t.banks.a = .empty ∧ t.banks.b = .empty ∧ t.banks.selector = .bankA ∧
      t.panel.events.imageFault = .unmarked ∧ t.attn = true ∧ t.line.state = s.line.state ∧
      (t.line = if s.line.state = .active then s.line.enqueue .roster else s.line) ∧
      t = { s with loader := t.loader, banks := t.banks, line := t.line,
                   panel := { s.panel with events := s.panel.events.setMark .imageFault .unmarked } }

/-- IMAGE_LOAD_COMPLETE (R24, R49, R74, R136, R141, R178, R185): every section installed at once, the banks, the events, the
baseline capture, the detectors, the live key and scale, the line; and the lead note is that of the transpose then live, which stood
still while no image was installed (the model's reading of R16, assumption 26). A setting that still waits for its boundary goes on
waiting (the model's reading, assumption 15). -/
def Obligations.ImageLoadInstallsImage : Prop :=
  ∀ (s : State) (flash : List Byte) (img : Image), s.Running → s.Quiet → s.loadingImage = true →
    loadImage flash = some img →
    ∃ t, exec (.imageLoadComplete flash) s = .next t ∧
      t.loader = { image := .loaded img, reading := none, startUpDone := true } ∧
      t.banks.selector = .bankA ∧ t.banks.b = .empty ∧
      (t.banks.a = match img.defaultNumber with
        | none => .empty
        | some n =>
          match img.readProgram flash n with
          | none => .empty
          | some p => .ready { number := n, params := p }) ∧
      t.panel.events.imageLoaded = .unmarked ∧
      (t.banks.a = .empty → t.panel.events.programFault = .unmarked) ∧
      (t.banks.a ≠ .empty → t.panel.events.programFault = s.panel.events.programFault) ∧
      (t.breath.baseline = none ∧ t.breath.captureCount = 0 ∧ t.breath.captureSum = 0) ∧
      (∀ d : Fin 4, t.detectors.get d = { hits := 0, armed := true }) ∧
      (t.harmony.key = img.defaultKey ∧ t.harmony.scale = img.defaultScale) ∧
      (s.loader.startUpDone = false →
        t.line = { s.line with state := if img.lineEnable then .joining else .disabled, joiningTimer := 0 }) ∧
      (s.loader.startUpDone = true →
        t.line = if s.line.state = .active then s.line.enqueue .roster else s.line) ∧
      t = { s with loader := t.loader, banks := t.banks, breath := { s.breath with baseline := none, captureCount := 0, captureSum := 0 },
                   resolver := { s.resolver with
                     leadNote := fold (s.resolver.taken + 12 * s.resolver.octaveShift + s.resolver.transpose) },
                   detectors := t.detectors, harmony := { s.harmony with key := img.defaultKey, scale := img.defaultScale },
                   line := t.line, panel := { s.panel with events := t.panel.events } }

/-- What an image holds after the clamps of its parts (R3, R5, R17, R27, R28, R38, R83, R162, R178, R179), and a program after the
clamps at its read (R68, spec 11.5). -/
def Obligations.LoadedContentsWithinClamps : Prop :=
  (∀ (flash : List Byte) (img : Image), loadImage flash = some img →
    (img.octaveTable.length = 16 ∧ ∀ x ∈ img.octaveTable, -2 ≤ x ∧ x ≤ 3) ∧
    (img.chart.length ≤ 96 ∧ ∀ e ∈ img.chart, e.pattern &&& e.care = e.pattern ∧ e.base ≤ 127) ∧
    (1 ≤ img.tOn ∧ img.tOn ≤ 4095 ∧ img.tOff < img.tOn ∧ img.tOff ≤ 4094 ∧ img.lipCentre ≤ 4095) ∧
    (img.curve.length = 33 ∧ ∀ x ∈ img.curve, x ≤ 32767) ∧
    (img.just.length = 12 ∧ ∀ x ∈ img.just, -500 ≤ x ∧ x ≤ 500) ∧
    (∀ d : Fin 4, ∀ df ∈ img.detectorDefs.get d, 1 ≤ df.count ∧ df.count ≤ 255 ∧
      match df.watch with
      | .breath low high => 0 ≤ low ∧ low ≤ 4095 ∧ 0 ≤ high ∧ high ≤ 4095
      | .rise low high => -4095 ≤ low ∧ low ≤ 4095 ∧ -4095 ≤ high ∧ high ≤ 4095
      | .lip low high => 0 ≤ low ∧ low ≤ 4095 ∧ 0 ≤ high ∧ high ≤ 4095
      | .keys care pattern => pattern &&& care = pattern) ∧
    (img.masterGain ≤ 65535 ∧ img.defaultKey < 12 ∧ img.defaultScale ≠ 0 ∧ img.directory.length ≤ 16) ∧
    (img.waves.length = 16 ∧ ∀ w ∈ img.waves, w.length = 256 ∧ ∀ x ∈ w, -32768 ≤ x ∧ x ≤ 32767)) ∧
  (∀ (flash : List Byte) (address : Nat) (p : Program), readProgram flash address = some p →
    p.softWave ≤ 15 ∧ p.brightWave ≤ 15 ∧ p.depth ≤ 32767 ∧ p.settle ≤ 15 ∧ p.onsetFrames ≤ 7 ∧
    (1 ≤ p.attack ∧ p.attack ≤ 32767) ∧ (1 ≤ p.releaseRate ∧ p.releaseRate ≤ 32767) ∧ p.portamento ≤ 2000 ∧
    p.strength ≤ 16 ∧ p.bendGain ≤ 255 ∧ p.deadband ≤ 1023 ∧ (1 ≤ p.slew ∧ p.slew ≤ 50) ∧ p.cap ≤ 32767 ∧
    ∀ r : Fin 3, (p.rankPrograms.get r).level ≤ 32767 ∧ (p.rankPrograms.get r).intervals.length ≤ 4 ∧
      ∀ i ∈ (p.rankPrograms.get r).intervals, -24 ≤ i ∧ i ≤ 24)

/-- DEFAULT_PROGRAM_READ_START: during a load of a good image with a program to read, bank A becomes LOADING with the default
number, or with count − 1 where that is not below the count (R74, R178). PROGRAM_READ_COMPLETE (R72, R180): a block that lies in the
flash with a good CRC makes the bank READY and current and raises PROGRAM_LOADED; any other makes it EMPTY, leaves the selector and
raises PROGRAM_FAULT. That a block running past the end of the flash fails whatever its CRC is the model's reading (assumption 23). -/
def Obligations.ProgramBlockReads : Prop :=
  (∀ (s : State) (flash : List Byte) (img : Image), s.Running → s.Quiet → s.loadingImage = true →
    loadImage flash = some img → img.directory ≠ [] →
    exec (.defaultProgramReadStart flash) s = .next
      { s with banks := { a := .loading (min img.defaultProgram (img.directory.length - 1)), b := .empty,
                          selector := .bankA } }) ∧
  (∀ (s : State) (flash : List Byte) (img : Image) (b : BankId) (n address : Nat), s.Running → s.Quiet →
    s.loader.image = .loaded img → s.loader.reading = some (.programRead b n) → img.directory[n]? = some address →
    ∃ t, exec (.programReadComplete flash) s = .next t ∧ t.loader = { s.loader with reading := none } ∧
      (let block := bytesFrom flash address 43
       if address + 43 ≤ flash.length ∧ crcGood block = true then
         t.bank b = .ready { number := n, params := programOf block } ∧ t.banks.selector = b ∧
         t.panel = { s.panel with events := s.panel.events.setMark .programLoaded .unmarked }
       else
         t.bank b = .empty ∧ t.banks.selector = s.banks.selector ∧
         t.panel = { s.panel with events := s.panel.events.setMark .programFault .unmarked }) ∧
      t.bank b.other = s.bank b.other ∧
      t = { s with loader := t.loader, banks := t.banks, panel := t.panel })

/-! ### Sensor frames -/

/-- R193: the check of a burst, and what a burst with a bad check does: nothing at all. -/
def Obligations.SensorBurstCheck : Prop :=
  (∀ burst : List Byte, (readBurst burst).isSome = true ↔
    burst.length = 8 ∧ (burst.map BitVec.toNat).sum % 256 = 255) ∧
  readBurst (List.replicate 8 0) = none ∧
  (∀ q k0 k1 k2 hi mid lo check : Byte,
    check.toNat = (255 + 7 * 256 - (q.toNat + k0.toNat + k1.toNat + k2.toNat + hi.toNat + mid.toNat + lo.toNat)) % 256 →
    (readBurst [q, k0, k1, k2, hi, mid, lo, check]).isSome = true) ∧
  (∀ (s : State) (burst : List Byte), readBurst burst = none → s.Quiet → exec (.sensorFrame burst) s = .next s)

/-- The receiver on a valid frame (R18, R19, R22): the timer at 0, the skipped frames counted up to 65535, a loss ended with
SENSOR_BACK, and no event otherwise. While no image is installed the frame goes no further (R1, R23, R37); and no frame touches the map, the Pitch Unit's own
state, the audio, the panel's FIFOs and settings or the image. -/
def Obligations.ValidFrameAtReceiver : Prop :=
  ∀ (s : State) (burst : List Byte) (f : SensorFrame), s.Running → s.Quiet → readBurst burst = some f →
    ∃ t, exec (.sensorFrame burst) s = .next t ∧
      t.sensor.receiver = .receiving ∧ t.sensor.missingTimer = 0 ∧ t.sensor.lastFrame = some f ∧
      (s.sensor.lastFrame = none → t.sensor.missedFrames = min 65535 s.sensor.missedFrames) ∧
      (∀ g, s.sensor.lastFrame = some g → g.seq < 256 → t.sensor.missedFrames =
        min 65535 (s.sensor.missedFrames +
          if f.seq = g.seq then 0 else (((f.seq : Int) - g.seq - 1) % 256).toNat)) ∧
      (s.sensor.receiver = .lost → t.panel.events.sensorBack = .unmarked) ∧
      (s.sensor.receiver ≠ .lost → t.panel.events.sensorBack = s.panel.events.sensorBack) ∧
      t.panel = { s.panel with events := { s.panel.events with sensorBack := t.panel.events.sensorBack } } ∧
      t.power = s.power ∧ t.loader.image = s.loader.image ∧ t.map = s.map ∧ t.pitch = s.pitch ∧ t.audio = s.audio ∧
      t.banks.selector = s.banks.selector ∧ t.line.state = s.line.state ∧
      (s.image? = none → t = { s with sensor := t.sensor, panel := { s.panel with events := t.panel.events } })

/-- The Note Resolver on a frame taken (R2 to R8, R12): the masked key set, the candidate, the UNRESOLVED count, the stability
count, the take test, and the lead note of the values as they stand. Where the lead note stays, or the articulation is not SOUNDING, or
no lead slot is SOUNDING, the frame moves no voice, rank or record unless it ends a note (R13). A take that changes the lead note under a
SOUNDING lead is a legato change (R13, R56, R116), after which every enabled rank plans (R100); the breath of the frame then changes
nothing else, or releases the note (that the resolver acts before the breath, and the Voice Table before the ranks, is the model's
reading, assumption 18). -/
def Obligations.ResolverTakesFrame : Prop :=
  (∀ (s : State) (burst : List Byte) (f : SensorFrame) (img : Image), s.Running → s.Quiet → readBurst burst = some f →
    s.loader.image = .loaded img →
    ∃ t, exec (.sensorFrame burst) s = .next t ∧
      t.resolver.keySet = img.maskedKeys f.keys ∧
      t.resolver.previous = some (img.candidate (img.maskedKeys f.keys)) ∧
      (t.resolver.stability =
        if s.resolver.previous = some (img.candidate (img.maskedKeys f.keys)) then min 15 (s.resolver.stability + 1)
        else 0) ∧
      (t.resolver.unresolvedFrames =
        if img.candidate (img.maskedKeys f.keys) = .unresolved then min 65535 (s.resolver.unresolvedFrames + 1)
        else s.resolver.unresolvedFrames) ∧
      (∀ n, img.candidate (img.maskedKeys f.keys) = .note n → s.settleFrames ≤ t.resolver.stability →
        n ≠ s.resolver.taken →
        t.resolver.taken = n ∧ t.resolver.leadNote = fold (n + 12 * s.resolver.octaveShift + s.resolver.transpose)) ∧
      ((img.candidate (img.maskedKeys f.keys) = .unresolved ∨ t.resolver.stability < s.settleFrames ∨
          img.candidate (img.maskedKeys f.keys) = .note s.resolver.taken) →
        t.resolver.taken = s.resolver.taken ∧ t.resolver.leadNote = s.resolver.leadNote) ∧
      t.resolver.octaveShift = s.resolver.octaveShift ∧ t.resolver.transpose = s.resolver.transpose ∧
      ((t.resolver.leadNote = s.resolver.leadNote ∨ s.breath.articulation ≠ .sounding ∨ s.leadTag = none) →
        (s.breath.articulation = .sounding → ∀ z ∈ s.breath.baseline, img.tOff ≤ min 4095 (f.breath - z)) →
        t = { s with sensor := t.sensor, resolver := t.resolver, breath := t.breath, detectors := t.detectors, panel := t.panel })) ∧
  (∀ (s : State) (burst : List Byte) (f : SensorFrame) (img : Image) (n : Int) (u : Fin 8) (v : Voice), s.Running → s.Quiet →
    readBurst burst = some f → s.loader.image = .loaded img → s.breath.articulation = .sounding → s.leadTag = some u →
    s.voice u = some v → img.candidate (img.maskedKeys f.keys) = .note n → n ≠ s.resolver.taken →
    (s.settleFrames ≤ if s.resolver.previous = some (.note n) then min 15 (s.resolver.stability + 1) else 0) →
    let note := fold (n + 12 * s.resolver.octaveShift + s.resolver.transpose)
    note ≠ s.resolver.leadNote →
    ∃ t s', exec (.sensorFrame burst) s = .next t ∧ t.resolver.leadNote = note ∧
      State.LegatoTo { s with sensor := t.sensor, resolver := t.resolver, panel := t.panel } s' u v note ∧
      ((∀ z ∈ s.breath.baseline, img.tOff ≤ min 4095 (f.breath - z)) →
        t.breath.articulation = .sounding ∧ t = { s'.planned with breath := t.breath, detectors := t.detectors }) ∧
      (∀ z ∈ s.breath.baseline, min 4095 (f.breath - z) < img.tOff →
        t.breath.articulation = .silent ∧ s'.planned.ReleasedTo t ∧
        t = { s'.planned with slots := t.slots, harmony := t.harmony, line := t.line, breath := t.breath,
                              detectors := t.detectors }))

/-- The fingering chart (R3 to R5): the mask and the octave index by the weights 1, 2, 4, 8 of the octave keys that are down, and
the first entry that matches the key set without the octave keys, moved by the octave value; UNRESOLVED where none does. -/
def Obligations.ChartGivesCandidate : Prop :=
  ∀ (img : Image) (keys : BitVec 24),
    (∀ k : Fin 24, (img.maskedKeys keys).getLsbD k.val = (keys.getLsbD k.val && !img.keyMask.getLsbD k.val)) ∧
    (∀ k : Fin 24, (img.chartKeys keys).getLsbD k.val =
      (keys.getLsbD k.val && !decide (∃ i : Fin 4, img.octaveKeys.get i = some k))) ∧
    img.octaveIndex keys =
      ([(0, 1), (1, 2), (2, 4), (3, 8)].map fun x : Fin 4 × Nat =>
        match img.octaveKeys.get x.1 with
        | some k => if keys.getLsbD k.val then x.2 else 0
        | none => 0).sum ∧
    img.octaveIndex keys ≤ 15 ∧
    ((∀ e ∈ img.chart, img.chartKeys keys &&& e.care ≠ e.pattern) → img.candidate keys = .unresolved) ∧
    (∀ (before after : List ChartEntry) (e : ChartEntry), img.chart = before ++ e :: after →
      (∀ x ∈ before, img.chartKeys keys &&& x.care ≠ x.pattern) → img.chartKeys keys &&& e.care = e.pattern →
      img.candidate keys = .note ((e.base : Int) + 12 * img.octaveTable.getD (img.octaveIndex keys) 0))

/-- The Breath Shaper on a frame (R23, R24, R26, R28, R29, R35): during capture the count and the sum alone; after it net breath,
rise, previous net breath, level, class and bend of the frame. BASELINE_CAPTURE_COMPLETE (R24, R25, R26): Z is the floor of the mean
of the sixteen, at most 1023 with BASELINE_HIGH. -/
def Obligations.BreathOfFrameAndBaseline : Prop :=
  (∀ (s : State) (burst : List Byte) (f : SensorFrame) (img : Image), s.Running → s.Quiet → readBurst burst = some f →
    s.loader.image = .loaded img →
    ∃ t, exec (.sensorFrame burst) s = .next t ∧
      (s.breath.baseline = none →
        t.breath = { s.breath with captureCount := s.breath.captureCount + 1,
                                   captureSum := s.breath.captureSum + f.breath }) ∧
      (∀ z, s.breath.baseline = some z →
        t.breath.net = min 4095 (f.breath - z) ∧
        t.breath.rise = ((min 4095 (f.breath - z) : Nat) : Int) - (s.breath.previousNet : Int) ∧
        t.breath.previousNet = t.breath.net ∧
        (let c0 : Int := img.curve.getD (t.breath.net / 128) 0
         let c1 : Int := img.curve.getD (t.breath.net / 128 + 1) 0
         (t.breath.level : Int) = c0 + Int.tdiv ((c1 - c0) * ((t.breath.net % 128 : Nat) : Int)) 128) ∧
        t.breath.levelClass =
          (if t.breath.level ≤ 4095 then 0 else if t.breath.level ≤ 12287 then 1 else if t.breath.level ≤ 24575 then 2
           else 3) ∧
        (let d : Int := (f.lip : Int) - img.lipCentre
         let (gain, dead) := match s.currentProgram with
           | some p => (p.bendGain, p.deadband)
           | none => (0, 0)
         t.breath.bend =
          if d.natAbs ≤ dead then 0
          else max (-2000) (min 2000 (d.sign * (((d.natAbs - dead) * gain / 64 : Nat) : Int)))) ∧
        t.breath.baseline = s.breath.baseline ∧ t.breath.captureCount = s.breath.captureCount ∧
        t.breath.captureSum = s.breath.captureSum)) ∧
  (∀ s : State, s.Running → s.breath.baseline = none → s.breath.captureCount = 16 →
    ∃ t, exec .baselineCaptureComplete s = .next t ∧
      t.breath = { s.breath with baseline := some (min 1023 (s.breath.captureSum / 16)), previousNet := 0 } ∧
      (t.panel.events.baselineHigh =
        if 1023 < s.breath.captureSum / 16 then .unmarked else s.panel.events.baselineHigh) ∧
      t = { s with breath := t.breath, panel := { s.panel with events := { s.panel.events with
              baselineHigh := t.panel.events.baselineHigh } } })

/-- The articulation on a frame evaluated (R30, R31, R33), the table of spec 02, 2.5: the end of an onset is left to ONSET_END,
and the end of a note delivers the release. A frame that crosses T_on with F = 0, or that brings the counter to F, leaves ONSET with the
end of the onset due: the table's SOUNDING is reached by ONSET_END (the model's reading, assumption 8). The release of a note: every voice
RELEASING, in NORMAL mode where it was PROVISIONAL or SOUNDING and with its fade where it faded, the NOTE_END placement of R60, every rank
IDLE with its CLAIM gone (R59, R117); where the same frame's take changes the lead note under a SOUNDING lead, the release is of the
state after it (ResolverTakesFrame). -/
def Obligations.ArticulationOfFrame : Prop :=
  ∀ (s : State) (burst : List Byte) (f : SensorFrame) (img : Image) (z : Nat), s.Running → s.Quiet →
    readBurst burst = some f → s.loader.image = .loaded img → s.breath.baseline = some z →
    ∃ t, exec (.sensorFrame burst) s = .next t ∧
      (let n := min 4095 (f.breath - z)
       let onset := match s.currentProgram with
         | some p => p.onsetFrames
         | none => 0
       match s.breath.articulation with
       | .silent =>
         if img.tOn ≤ n then
           t.breath.articulation = .onset ∧ t.breath.onsetCounter = 0 ∧ t.breath.onsetPeak = t.breath.level ∧
             t.breath.onsetEnding = decide (onset = 0) ∧ t.slots = s.slots ∧ t.line = s.line
         else t.breath.articulation = .silent ∧ t.slots = s.slots ∧ t.line = s.line
       | .onset =>
         if n < img.tOff then t.breath.articulation = .silent ∧ t.breath.onsetEnding = false ∧ t.slots = s.slots ∧ t.line = s.line
         else
           t.breath.articulation = .onset ∧ t.breath.onsetCounter = s.breath.onsetCounter + 1 ∧
             t.breath.onsetPeak = max s.breath.onsetPeak t.breath.level ∧
             t.breath.onsetEnding = decide (onset ≤ s.breath.onsetCounter + 1) ∧ t.slots = s.slots ∧ t.line = s.line
       | .sounding =>
         if n < img.tOff then
           t.breath.articulation = .silent ∧
             (∀ u v, t.voice u = some v → v.releasing = true) ∧
             (∀ r : Fin 3, (t.rank r).stage = .idle ∧ (t.rank r).claim = none ∧ (t.rank r).refused = [] ∧
               (t.rank r).position = 0 ∧ (t.rank r).slot = none) ∧
             (t.resolver.leadNote = s.resolver.leadNote ∨ s.leadTag = none → s.ReleasedTo t ∧
               t = { s with sensor := t.sensor, resolver := t.resolver, breath := t.breath, detectors := t.detectors,
                            panel := t.panel, slots := t.slots, harmony := t.harmony, line := t.line })
         else t.breath.articulation = .sounding)

/-- The detectors on a frame (R38 to R43), with the raw conditions of R39 and R40: both bounds included, the masked keys within the
care set equal to the pattern, the negate flag inverting either, an unused detector false. A used detector acts under SEPARATE, and as
the lower member of a joined pair (R41, R42); one that acts counts, re-arms or waits by its condition, the pair's join applied, and any
other is left alone. The firing itself is DETECTOR_FIRE. -/
def Obligations.DetectorsCountFrame : Prop :=
  ∀ (s : State) (burst : List Byte) (f : SensorFrame) (img : Image), s.Running → s.Quiet → readBurst burst = some f →
    s.loader.image = .loaded img →
    ∃ t, exec (.sensorFrame burst) s = .next t ∧
      (let net : Int := if s.breath.baseline.isSome then (t.breath.net : Int) else 0
       let rise : Int := if s.breath.baseline.isSome then t.breath.rise else 0
       let cond := fun d : Fin 4 =>
         match img.detectorDefs.get d with
         | none => false
         | some df => xor df.negate <|
           match df.watch with
           | .breath low high => decide (low ≤ net ∧ net ≤ high)
           | .rise low high => decide (low ≤ rise ∧ rise ≤ high)
           | .lip low high => decide (low ≤ (f.lip : Int) ∧ (f.lip : Int) ≤ high)
           | .keys care pattern => decide (img.maskedKeys f.keys &&& care = pattern)
       ∀ d : Fin 4,
         let join := if d.val < 2 then img.join01 else img.join23
         let lower := d = 0 ∨ d = 2
         let upper : Fin 4 := if d.val < 2 then 1 else 3
         (img.detectorDefs.get d = none ∨ (join ≠ .separate ∧ ¬ lower) → t.detectors.get d = s.detectors.get d) ∧
         (∀ df, img.detectorDefs.get d = some df → join = .separate ∨ lower →
           let on := match join with
             | .separate => cond d
             | .both => cond d && cond upper
             | .either => cond d || cond upper
           (on = false → t.detectors.get d = { hits := 0, armed := true }) ∧
           (on = true → (s.detectors.get d).armed = false → t.detectors.get d = s.detectors.get d) ∧
           (on = true → (s.detectors.get d).armed = true →
             t.detectors.get d = { hits := min df.count ((s.detectors.get d).hits + 1), armed := true })))

/-- DETECTOR_FIRE (R43, R44, R45, R47, R48, R73): the lowest-numbered detector that has reached its count becomes unarmed and its
action is taken: REPORT raises GESTURE_REPORT and joins the number to its set; PROGRAM_SWAP flips the selector to a READY bank and is
forgotten otherwise; an octave action moves the shift by the table of R11, and the lead note is that of the new shift (R12); where that is
the old one, with the articulation not SOUNDING, or with no SOUNDING lead slot, nothing else changes (R13), and otherwise the change is a
legato change (R56, R116), the Voice Table acting before the ranks (the model's reading, assumption 18), after which every enabled rank
plans (R100) and nothing else changes. -/
def Obligations.DetectorFireTakesAction : Prop :=
  (∀ (s : State) (d : Fin 4) (a : Action), s.Running → s.firing d = some a → (∀ e, e < d → s.firing e = none) →
    let fired : Four Detector := s.detectors.set d { s.detectors.get d with armed := false }
    (a = .report →
      ∃ t, exec .detectorFire s = .next t ∧ t.panel.events.gestureReport = .unmarked ∧
        (∀ e : Fin 4, t.panel.gestureSet.getLsbD e.val = (s.panel.gestureSet.getLsbD e.val || decide (e = d))) ∧
        t = { s with detectors := fired,
                     panel := { s.panel with gestureSet := t.panel.gestureSet,
                                             events := { s.panel.events with gestureReport := .unmarked } } }) ∧
    (a = .programSwap →
      ∃ t, exec .detectorFire s = .next t ∧
        (t.banks.selector =
          match s.bank s.banks.selector.other with
          | .ready _ => s.banks.selector.other
          | _ => s.banks.selector) ∧
        t = { s with detectors := fired, banks := { s.banks with selector := t.banks.selector } })) ∧
  (∀ (s : State) (d : Fin 4) (a : Action), s.Running → s.firing d = some a → (∀ e, e < d → s.firing e = none) →
    (a = .octaveUp ∨ a = .octaveDown) →
    ∃ t, exec .detectorFire s = .next t ∧
      (a = .octaveUp → t.resolver.octaveShift = if s.resolver.octaveShift = 1 then 0 else 1) ∧
      (a = .octaveDown → t.resolver.octaveShift = if s.resolver.octaveShift = -1 then 0 else -1) ∧
      t.resolver.leadNote = fold (s.resolver.taken + 12 * t.resolver.octaveShift + s.resolver.transpose) ∧
      (t.detectors.get d).armed = false ∧ (t.detectors.get d).hits = (s.detectors.get d).hits ∧
      let moved := { s with detectors := s.detectors.set d { s.detectors.get d with armed := false }
                            resolver := { s.resolver with octaveShift := t.resolver.octaveShift,
                                                          leadNote := t.resolver.leadNote } }
      (s.breath.articulation ≠ .sounding ∨ s.leadTag = none ∨ t.resolver.leadNote = s.resolver.leadNote → t = moved) ∧
      (∀ u v, s.breath.articulation = .sounding → s.leadTag = some u → s.voice u = some v →
        t.resolver.leadNote ≠ s.resolver.leadNote →
        ∃ s', moved.LegatoTo s' u v t.resolver.leadNote ∧ t = s'.planned))

/-- Changes of the rank enables (R46, R96 to R98, R100). DETECTOR_FIRE with HARMONY_TOGGLE while the master enable is true: it is
false, every rank that was enabled makes a disable yield, and refused lists and positions are kept; while it is false: it is true, and
under a SOUNDING lead every rank now enabled plans from its kept position, in rank order. RANKS_TAKEN of a set that has met its
boundary: the live set is the waiting one; with no SOUNDING lead, a rank whose enable ends makes a disable yield and every other rank is
as it was; under a SOUNDING lead the ranks are handled in rank order, one whose enable ends making a disable yield and one newly enabled
planning from its kept position. A disable yield: the slot, where the rank has one, is RELEASING in WITHDRAW mode with its NOTE_END
placement (R58, R60), the CLAIM has left the queue, the rank is IDLE with its refused list and position kept, and nothing else moves. -/
def Obligations.EnableChangesYieldRanks : Prop :=
  (∀ (s : State) (d : Fin 4), s.Running → s.firing d = some .harmonyToggle → (∀ e, e < d → s.firing e = none) →
    s.harmony.master = true →
    ∃ t, exec .detectorFire s = .next t ∧ t.harmony.master = false ∧
      (let s' := { s with detectors := s.detectors.set d { s.detectors.get d with armed := false },
                          harmony := { s.harmony with master := false } }
       t = ([0, 1, 2] : List (Fin 3)).foldl (fun x r => if s.enabled r = true then disableYield r x else x) s') ∧
      ∀ r : Fin 3, (t.rank r).refused = (s.rank r).refused ∧ (t.rank r).position = (s.rank r).position ∧
        (s.enabled r = true →
          (t.rank r).stage = .idle ∧ (t.rank r).claim = none ∧ (t.rank r).slot = none ∧
            t.line.queue.all (fun y => !y.record.isClaim r) = true ∧
            ∀ u v, s.rankTag r = some u → t.voice u = some v → v.releasing = true) ∧
        (s.enabled r = false → t.rank r = s.rank r)) ∧
  (∀ (s : State) (d : Fin 4), s.Running → s.firing d = some .harmonyToggle → (∀ e, e < d → s.firing e = none) →
    s.harmony.master = false →
    let s' := { s with detectors := s.detectors.set d { s.detectors.get d with armed := false },
                       harmony := { s.harmony with master := true } }
    (s.leadTag = none → exec .detectorFire s = .next s') ∧
    (s.leadTag ≠ none → exec .detectorFire s = .next
      (([0, 1, 2] : List (Fin 3)).foldl
        (fun x r => if s'.enabled r = true then plan r (x.rank r).position false x else x) s'))) ∧
  (∀ (s : State) (set : BitVec 3), s.Running → s.pitch.settleCount < 16 → s.panel.ranksDue = true →
    s.panel.waitRanks = some set →
    (s.leadTag = none →
      ∃ t, exec .ranksTaken s = .next t ∧ t.harmony.liveRanks = set ∧ t.panel.waitRanks = none ∧
        t.harmony.master = s.harmony.master ∧ t.harmony.counter = s.harmony.counter ∧
        ∀ r : Fin 3,
          (s.enabled r = true → set.getLsbD r.val = false →
            (t.rank r).stage = .idle ∧ (t.rank r).claim = none ∧ (t.rank r).slot = none ∧
              (t.rank r).refused = (s.rank r).refused ∧ (t.rank r).position = (s.rank r).position ∧
              ∀ y ∈ t.line.queue, y.record.isClaim r = false) ∧
          ((s.enabled r = false ∨ set.getLsbD r.val = true) → t.rank r = s.rank r)) ∧
    (s.leadTag ≠ none →
      let s' := { s with panel := { s.panel with waitRanks := none, ranksDue := false },
                         harmony := { s.harmony with liveRanks := set } }
      exec .ranksTaken s = .next
        (([0, 1, 2] : List (Fin 3)).foldl
          (fun x r =>
            if s.enabled r = true ∧ set.getLsbD r.val = false then disableYield r x
            else if s.enabled r = false ∧ s'.enabled r = true then plan r (x.rank r).position false x
            else x) s'))) ∧
  (∀ (s : State) (r : Fin 3), ∃ t, disableYield r s = t ∧
    t = { s with
      slots := t.slots
      line := t.line
      harmony := { s.harmony with
        ranks := s.harmony.ranks.set r { s.rank r with stage := .idle, claim := none, slot := none, localDue := false } } } ∧
    (∀ y ∈ t.line.queue, y.record.isClaim r = false) ∧
    (s.rankTag r = none → t.slots = s.slots ∧
      t.line = { s.line with queue := s.line.queue.filter fun y => !y.record.isClaim r }) ∧
    (∀ u v, s.rankTag r = some u → s.voice u = some v →
      t.slots = s.slots.set u { s.slot u with voice := some { v with state := .releasingWithdraw none } } ∧
      (∀ y ∈ t.line.queue, y.record.isNoteStart u = false) ∧
      (s.line.state = .active → (s.slot u).announced = true ∨ s.line.announces u = true →
        ∃ y ∈ t.line.queue, y.record = .noteEnd u) ∧
      let kept := { s.line with queue := s.line.queue.filter fun y => !y.record.isNoteStart u }
      let placed := if (s.slot u).announced = true ∨ s.line.announces u = true then kept.enqueue (.noteEnd u) else kept
      t.line = { placed with queue := placed.queue.filter fun y => !y.record.isClaim r }))

/-- ONSET_END (R9, R32, R52 to R55, R63, R100): with no gesture of the frame still to fire, the articulation becomes SOUNDING and the
onset take is made. With a READY current bank a LEAD slot is SOUNDING on the lead note at gain 0 and phase 0 with the onset peak as the
desired gain of its first block, and its NOTE_START is queued in ACTIVE; the slot is the lowest-numbered FREE one, else the RELEASING one
with the lowest gain current and, of those, the lowest number; and from there every enabled rank plans from position 0, in rank order.
While the current bank is not READY there is no voice, no record, no claim. -/
def Obligations.OnsetEndStartsLead : Prop :=
  (∀ (s : State) (c : Candidate) (h : Held) (u : Fin 8), s.Running → (∀ d : Fin 4, s.firing d = none) →
    s.breath.articulation = .onset → s.breath.onsetEnding = true → s.resolver.previous = some c →
    s.resolver.leadNote = fold (s.resolver.taken + 12 * s.resolver.octaveShift + s.resolver.transpose) →
    s.bank s.banks.selector = .ready h → s.Takes u → (∀ r : Fin 3, (s.rank r).slot = none) →
    ∃ t s' v, exec .onsetEnd s = .next t ∧ t.breath = { s.breath with articulation := .sounding, onsetEnding := false } ∧
      (t.resolver.taken = match c with
        | .note n => n
        | .unresolved => s.resolver.taken) ∧
      t.resolver.leadNote = fold (t.resolver.taken + 12 * s.resolver.octaveShift + s.resolver.transpose) ∧
      t = ([0, 1, 2] : List (Fin 3)).foldl (fun x r => if x.enabled r = true then plan r 0 false x else x) s' ∧
      s'.slots = s.slots.set u { s.slot u with gainCurrent := 0, gainTarget := 0, phase := 0, voice := some v } ∧
      s'.harmony = s.harmony ∧ s'.map = s.map ∧ (s.line.state ≠ .active → s'.line = s.line) ∧
      t.slot u = s'.slot u ∧ v.role = .lead ∧ v.state = .sounding ∧ v.note = t.resolver.leadNote ∧
      v.bank = s.banks.selector ∧ v.openingGain = some s.breath.onsetPeak ∧
      v.baseCurrent = 1000 * (v.note : Int) ∧ v.baseTarget = v.baseCurrent ∧ v.justCurrent = v.justTarget ∧
      (s.line.state = .active →
        ∃ y ∈ t.line.queue, y.record = .noteStart u v.note .lead s.breath.levelClass) ∧
      (s.line.state ≠ .active → t.line = s.line)) ∧
  (∀ (s : State), s.Running → (∀ d : Fin 4, s.firing d = none) → s.breath.articulation = .onset →
    s.breath.onsetEnding = true → s.currentProgram = none →
    ∃ t, exec .onsetEnd s = .next t ∧
      t = { s with breath := { s.breath with articulation := .sounding, onsetEnding := false }, resolver := t.resolver } ∧
      t.resolver.octaveShift = s.resolver.octaveShift ∧ t.resolver.transpose = s.resolver.transpose ∧
      t.resolver.stability = s.resolver.stability ∧ t.resolver.previous = s.resolver.previous)

/-- SENSOR_LOST (R20, R21, R34): the receiver is LOST and the event raised; after a capture the net breath is 0 and the level C[0];
the articulation is SILENT, and a sounding note is released: every voice RELEASING, in NORMAL mode where it was PROVISIONAL or SOUNDING
and with its fade where it faded, the NOTE_END placement of R60, every rank IDLE with its CLAIM gone (R59, R117). Nothing else moves. -/
def Obligations.SensorLossEndsNote : Prop :=
  ∀ s : State, s.Running → s.sensor.receiver = .receiving → s.sensor.missingTimer = 8 →
    ∃ t, exec .sensorLost s = .next t ∧ t.sensor = { s.sensor with receiver := .lost } ∧
      t.panel = { s.panel with events := { s.panel.events with sensorLost := .unmarked } } ∧ t.attn = true ∧
      (∀ img, s.loader.image = .loaded img →
        t.breath.articulation = .silent ∧ t.breath.baseline = s.breath.baseline ∧
        (s.breath.baseline ≠ none → t.breath.net = 0 ∧ t.breath.level = img.curve.getD 0 0 ∧
          t.breath.levelClass = levelClassOf (img.curve.getD 0 0)) ∧
        (s.breath.baseline = none → t.breath.net = s.breath.net ∧ t.breath.level = s.breath.level) ∧
        t.breath.bend = s.breath.bend ∧ t.breath.previousNet = s.breath.previousNet ∧
        t.resolver = s.resolver ∧ t.detectors = s.detectors ∧ t.map = s.map ∧
        (s.breath.articulation = .sounding →
          (∀ u v, t.voice u = some v → v.releasing = true) ∧
          (∀ r : Fin 3, (t.rank r).stage = .idle ∧ (t.rank r).claim = none ∧ (t.rank r).refused = []) ∧
          s.ReleasedTo t) ∧
        (s.breath.articulation ≠ .sounding → t.slots = s.slots ∧ t.harmony = s.harmony ∧ t.line = s.line) ∧
        t = { s with sensor := t.sensor, breath := t.breath, panel := t.panel, slots := t.slots, harmony := t.harmony,
                     line := t.line }) ∧
      (s.image? = none → t = { s with sensor := t.sensor, panel := t.panel })

/-! ### The audio block boundary -/

/-- Gains at a boundary (R58, R63 to R65): every slot's gain current takes its old target; a RELEASING voice at 0 is FREE with its
announced flag kept; a PROVISIONAL or SOUNDING voice gets its desired gain within the attack and release rates of its bank.
A PENDING bank that no voice references any more becomes LOADING and its read starts (R71); any other bank is as it was. The gains
read the voices and the level as they stand when the boundary comes: a claim confirmed or a sensor lost at it counts from the next
one, which is the model's choice (assumption 7). -/
def Obligations.BoundaryMovesGains : Prop :=
  ∀ s : State, s.Running → s.Quiet →
    ∃ t, exec .audioBlockBoundary s = .next t ∧ t.banks.selector = s.banks.selector ∧ t.loader.image = s.loader.image ∧
      (∀ b, (∀ n h, s.bank b ≠ .pending n h) → t.bank b = s.bank b) ∧
      (∀ b n h, s.bank b = .pending n h → (∃ u v, t.voice u = some v ∧ v.bank = b) → t.bank b = s.bank b) ∧
      (∀ b n h, s.bank b = .pending n h → (∀ u v, t.voice u = some v → v.bank ≠ b) →
        t.bank b = .loading n ∧ ((∀ m g, s.bank b.other ≠ .pending m g) → t.loader.reading = some (.programRead b n))) ∧
      ((∀ b n h, s.bank b ≠ .pending n h) → t.loader = s.loader) ∧
      ∀ u : Fin 8,
      let x := s.slot u
      let y := t.slot u
      y.announced = x.announced ∧ y.phase = x.phase ∧
      (x.voice = none → y = x) ∧
      (∀ v, x.voice = some v → v.releasing = true → x.gainTarget = 0 →
        y.voice = none ∧ y.gainCurrent = 0 ∧ y.gainTarget = 0) ∧
      (∀ v, x.voice = some v → v.releasing = true → x.gainTarget ≠ 0 → ∃ w, y.voice = some w ∧
        y.gainCurrent = x.gainTarget ∧ w.releasing = true ∧
        (v.state = .releasingNormal →
          w.state = .releasingNormal ∧ y.gainTarget = x.gainTarget - (s.programOfBank v.bank).releaseRate) ∧
        (v.state = .releasingWithdraw none →
          y.gainTarget = x.gainTarget - max 1 ((x.gainTarget + 7) / 8) ∧
          w.state = .releasingWithdraw (some (max 1 ((x.gainTarget + 7) / 8)))) ∧
        (∀ n, v.state = .releasingWithdraw (some n) →
          y.gainTarget = x.gainTarget - n ∧ w.state = .releasingWithdraw (some n))) ∧
      (∀ v, x.voice = some v → v.releasing = false → ∃ w, y.voice = some w ∧
        w.state = v.state ∧ w.role = v.role ∧ w.note = v.note ∧ w.bank = v.bank ∧
        y.gainCurrent = x.gainTarget ∧ w.openingGain = none ∧
        (let p := s.programOfBank v.bank
         let desired : Nat := match v.role with
           | .lead => (match v.openingGain with | some peak => peak | none => s.breath.level)
           | .harmony r =>
             if v.state = .provisional then min (s.breath.level * (p.rankPrograms.get r).level / 32768) p.cap
             else s.breath.level * (p.rankPrograms.get r).level / 32768
         y.gainTarget = min 32767 (min (x.gainTarget + p.attack) (max desired (x.gainTarget - p.releaseRate)))))

/-- The root at a boundary (R79 to R81): the lowest note of the map's entries of class 1 to 3 and of the own SOUNDING slots;
adopted at once when there is none to replace, lost at once when there is none, kept when it is the same, and else settled. The
boundary that brings the settle count to 16 keeps the old root and leaves the rest of its evaluation to ROOT_SETTLED (the model's
reading of R75 and R81, assumption 9): then the candidate that has been steady for 16 boundaries is the root, the settle count is 0, and
every voice's just target is taken against it. -/
def Obligations.RootFollowsSection : Prop :=
  (∀ s : State, s.Running → s.Quiet →
    ∃ t, exec .audioBlockBoundary s = .next t ∧
      (let isCandidate := fun n : Nat =>
         (∃ e ∈ s.map.entries, 1 ≤ e.levelClass ∧ e.note = n) ∨
           ∃ u v, s.voice u = some v ∧ v.state = .sounding ∧ v.note = n
       ((∀ n, ¬ isCandidate n) → t.pitch.root = none ∧ t.pitch.settleCount = 0 ∧ t.pitch.previousRoot = none) ∧
       (∀ c, isCandidate c → (∀ n, isCandidate n → c ≤ n) →
         t.pitch.previousRoot = some c ∧
         (s.pitch.root = none → t.pitch.root = some c ∧ t.pitch.settleCount = 0) ∧
         (s.pitch.root = some c → t.pitch.root = some c ∧ t.pitch.settleCount = 0) ∧
         (∀ root, s.pitch.root = some root → root ≠ c → t.pitch.root = some root ∧
           t.pitch.settleCount = if s.pitch.previousRoot = some c then min 16 (s.pitch.settleCount + 1) else 0))) ∧
      t.pitch.tuning = s.pitch.tuning) ∧
  (∀ s : State, s.Running → s.pitch.settleCount = 16 →
    ∃ t, exec .rootSettled s = .next t ∧
      t.pitch = { s.pitch with root := s.pitch.previousRoot, settleCount := 0 } ∧
      t = { s with pitch := t.pitch, slots := t.slots } ∧
      ∀ u : Fin 8, t.slot u = { s.slot u with voice := t.voice u } ∧ (s.voice u = none → t.voice u = none) ∧
        ∀ v, s.voice u = some v → ∃ w, t.voice u = some w ∧
          w = { v with justTarget := w.justTarget, justCurrent := w.justCurrent, pitch := w.pitch,
                       increment := w.increment } ∧
          w.justTarget = t.justTargetOf v.note v.bank ∧
          ((w.justTarget - v.justCurrent).natAbs ≤ (s.programOfBank v.bank).slew → w.justCurrent = w.justTarget) ∧
          ((w.justCurrent - v.justCurrent).natAbs ≤ (s.programOfBank v.bank).slew ∨ w.justCurrent = w.justTarget) ∧
          (w.pitch : Int) = max 0 (min 127999 (v.baseCurrent + s.pitch.tuning + w.justCurrent + s.breath.bend)) ∧
          w.increment = incrementOf w.pitch)

/-- The pitch of every voice at a boundary whose root does not settle at it (R75, R77, R84 to R92): glide, just target, slew,
composition and increment, for every slot that is not FREE after the boundary. -/
def Obligations.BoundaryComposesPitch : Prop :=
  ∀ s : State, s.Running → s.Quiet →
    ∃ t, exec .audioBlockBoundary s = .next t ∧
      (t.pitch.settleCount < 16 → ∀ u v w, s.voice u = some v → t.voice u = some w →
        let p := s.programOfBank v.bank
        let dist : Int := v.baseTarget - v.baseCurrent
        w.baseTarget = v.baseTarget ∧
        (p.portamento = 0 ∨ dist.natAbs ≤ p.portamento → w.baseCurrent = v.baseTarget) ∧
        (p.portamento ≠ 0 → p.portamento < dist.natAbs → w.baseCurrent = v.baseCurrent + dist.sign * p.portamento) ∧
        (w.justTarget = match t.pitch.root with
          | none => 0
          | some root =>
            let iclass := (((v.note : Int) - root) % 12).toNat
            if iclass = 0 then 0 else divHalfAway (s.justTable.getD iclass 0 * p.strength) 16) ∧
        (let off : Int := w.justTarget - v.justCurrent
         (off.natAbs ≤ p.slew → w.justCurrent = w.justTarget) ∧
         (p.slew < off.natAbs → w.justCurrent = v.justCurrent + off.sign * p.slew)) ∧
        (w.pitch : Int) = max 0 (min 127999 (w.baseCurrent + s.pitch.tuning + w.justCurrent + s.breath.bend)) ∧
        w.increment = incrementOf w.pitch)

/-- The ages and timers of a boundary (R20, R105, R107, R122, R137, R139, R149) and the marks the boundary leaves on waiting settings
and LOCAL_PENDING ranks (R108, R185; the marks are the model's, assumption 7). No map entry, no queued record, no event and no FIFO
moves. -/
def Obligations.BoundaryAdvancesTimers : Prop :=
  ∀ s : State, s.Running → s.Quiet →
    ∃ t, exec .audioBlockBoundary s = .next t ∧
      (t.sensor = if s.sensor.receiver = .receiving then
          { s.sensor with missingTimer := min 8 (s.sensor.missingTimer + 1) } else s.sensor) ∧
      (∀ r : Fin 3,
        ((s.rank r).stage = .queued → t.rank r = { s.rank r with queuedAge := min 10 ((s.rank r).queuedAge + 1) }) ∧
        ((s.rank r).stage = .window → t.rank r = { s.rank r with windowAge := min 4 ((s.rank r).windowAge + 1) }) ∧
        ((s.rank r).stage = .localPending → t.rank r = { s.rank r with localDue := true }) ∧
        ((s.rank r).stage ∉ [.queued, .window, .localPending] → t.rank r = s.rank r)) ∧
      t.map.entries = s.map.entries ∧
      (∀ st : Fin 8, t.map.stations.get st =
        if (s.map.stations.get st).present then
          { s.map.stations.get st with age := min 200 ((s.map.stations.get st).age + 1) }
        else s.map.stations.get st) ∧
      (t.line = match s.line.state with
        | .joining => { s.line with joiningTimer := min 200 (s.line.joiningTimer + 1) }
        | .listenOnly => { s.line with decayTimer := min 8 (s.line.decayTimer + 1) }
        | .active => { s.line with rosterTimer := s.line.rosterTimer.map fun n => min 64 (n + 1) }
        | _ => s.line) ∧
      t.audio = { s.audio with sampleIndex := 0 } ∧
      t.panel = { s.panel with transposeDue := s.panel.waitTranspose.isSome, tuningDue := s.panel.waitTuning.isSome,
                               keyDue := s.panel.waitKey.isSome, ranksDue := s.panel.waitRanks.isSome } ∧
      t.breath = s.breath ∧ t.resolver = s.resolver ∧ t.detectors = s.detectors

/-! ### Settings taken at a boundary -/

/-- The settings as they are taken, once a boundary has passed since their messages were processed (R11, R88, R118, R185), with no root
adoption of that boundary still due. TRANSPOSE_TAKEN (R12, R13, R16): the waiting value is the live transpose, and with an image installed
the lead note is the sum of taken fingering, octave shift and transpose, folded into 0..127 by whole octaves (without one it stands: the
model's reading of R16, assumption 26); with the articulation not SOUNDING nothing else changes. While it is SOUNDING with a SOUNDING
lead slot a different lead note is a legato change (R56, R116), the Voice Table acting before the ranks, which plan on the slot with its
new note (the model's reading, assumption 18): the slot has the new note and base target and keeps its gain, phase, base current and bank; in ACTIVE its NOTE_START is queued; every rank's claim is abandoned, its refused list empty and its slot kept;
and from there every enabled rank plans from position 0, retargeting the slot it holds (R100). TUNING_TAKEN and KEY_TAKEN: the waiting
value is the live one and no longer waits; nothing else changes. A value that has met no boundary is not taken (the marks that say so are
the model's, assumption 7). -/
def Obligations.SettingsTakenAtBoundary : Prop :=
  (∀ (s : State) (v : Int), s.Running → s.pitch.settleCount < 16 → s.panel.transposeDue = true →
    s.panel.waitTranspose = some v →
    ∃ t, exec .transposeTaken s = .next t ∧ t.resolver.transpose = v ∧ t.panel.waitTranspose = none ∧
      (let sum : Int := s.resolver.taken + 12 * s.resolver.octaveShift + v
       s.image?.isSome = true →
       t.resolver.leadNote = fold sum ∧ t.resolver.leadNote ≤ 127 ∧ ((t.resolver.leadNote : Int) - sum) % 12 = 0 ∧
       (0 ≤ sum → sum ≤ 127 → (t.resolver.leadNote : Int) = sum) ∧ (127 < sum → 116 ≤ t.resolver.leadNote) ∧
       (sum < 0 → t.resolver.leadNote < 12)) ∧
      (s.image? = none → t.resolver.leadNote = s.resolver.leadNote) ∧
      t.resolver.taken = s.resolver.taken ∧ t.resolver.octaveShift = s.resolver.octaveShift ∧
      (s.breath.articulation ≠ .sounding ∨ s.image? = none →
        t = { s with resolver := { s.resolver with transpose := v, leadNote := t.resolver.leadNote }
                     panel := { s.panel with waitTranspose := none, transposeDue := false } })) ∧
  (∀ (s : State) (v : Int) (u : Fin 8) (x : Voice), s.Running → s.pitch.settleCount < 16 → s.image?.isSome = true →
    s.panel.transposeDue = true → s.panel.waitTranspose = some v →
    s.breath.articulation = .sounding → s.leadTag = some u → s.voice u = some x →
    fold (s.resolver.taken + 12 * s.resolver.octaveShift + v) ≠ s.resolver.leadNote →
    let note := fold (s.resolver.taken + 12 * s.resolver.octaveShift + v)
    ∃ t s', exec .transposeTaken s = .next t ∧
      t = ([0, 1, 2] : List (Fin 3)).foldl (fun y r => if y.enabled r = true then plan r 0 true y else y) s' ∧
      s'.slots = s.slots.set u { s.slot u with voice := some { x with note := note, baseTarget := 1000 * note } } ∧
      (∀ r : Fin 3, s'.enabled r = s.enabled r ∧ s'.rank r = { s.rank r with
        stage := .idle, claim := none, refused := [], position := 0, localDue := false }) ∧
      (s.line.state = .active → ∃ y ∈ s'.line.queue, y.record = .noteStart u note x.role.onLine s.breath.levelClass) ∧
      (∀ y ∈ s'.line.queue, ∀ r : Fin 3, y.record.isClaim r = false) ∧
      s'.map = s.map ∧ s'.pitch = s.pitch ∧ s'.breath = s.breath ∧
      ((∀ r : Fin 3, s.enabled r = false) → t = s')) ∧
  (∀ (s : State) (v : Int), s.Running → s.pitch.settleCount < 16 → s.panel.tuningDue = true →
    s.panel.waitTuning = some v →
    exec .tuningTaken s = .next
      { s with pitch := { s.pitch with tuning := v }
               panel := { s.panel with waitTuning := none, tuningDue := false } }) ∧
  (∀ (s : State) (k : Nat) (scale : BitVec 12), s.Running → s.panel.keyDue = true →
    s.panel.waitKey = some (k, scale) →
    exec .keyTaken s = .next
      { s with harmony := { s.harmony with key := k, scale := scale }
               panel := { s.panel with waitKey := none, keyDue := false } }) ∧
  (∀ s : State, s.pitch.settleCount < 16 →
    (s.panel.transposeDue = false → exec .transposeTaken s = .next s) ∧
    (s.panel.tuningDue = false → exec .tuningTaken s = .next s) ∧
    (s.panel.keyDue = false → exec .keyTaken s = .next s) ∧
    (s.panel.ranksDue = false → exec .ranksTaken s = .next s))

/-! ### The claim protocol -/

/-- A plan with a SOUNDING lead (R57, R99, R101 to R103): the first candidate that is in the scale, not in the map, not held locally by
another role and not refused is claimed. The claim number is the counter's value, advanced past the numbers of the other outstanding
claims that it meets, and the counter stands one further. The rank names its slot: at a lead-note change the slot it already has, which
is PROVISIONAL on the new note with its gain, base current and bank kept; else the one the allocation rule names, PROVISIONAL in the
rank's role on the claim note with the lead's bank, at gain 0 and phase 0. The rank is QUEUED with its CLAIM queued in ACTIVE and
LOCAL_PENDING in any other line state. With no such candidate it is EXHAUSTED, its claim gone, its position and refused list kept; a
slot it still holds, as at a lead-note change, is withdrawn: RELEASING in WITHDRAW mode with its NOTE_END placement (R58, R60, R103);
and nothing else moves. -/
def Obligations.PlanClaimsFirstEligible : Prop :=
  ∀ (s : State) (r : Fin 3) (start : Nat) (keep : Bool) (lead : Voice), s.leadVoice = some lead →
    let intervals := ((s.programOfBank lead.bank).rankPrograms.get r).intervals
    let note := fun i : Int => fold ((lead.note : Int) + i)
    let ok := fun i : Int =>
      i ≠ 0 ∧ s.harmony.scale.getLsbD (((note i : Int) - s.harmony.key) % 12).toNat = true ∧
      (∀ e ∈ s.map.entries, e.note ≠ note i) ∧
      (∀ u v, s.voice u = some v → v.releasing = false → v.note = note i → v.role = .harmony r) ∧
      note i ∉ (s.rank r).refused
    let t := plan r start keep s
    ((∀ i ∈ intervals.drop start, ¬ ok i) →
      (t.rank r).stage = .exhausted ∧ (t.rank r).claim = none ∧ (t.rank r).slot = none ∧
        (t.rank r).position = (s.rank r).position ∧ (t.rank r).refused = (s.rank r).refused ∧
        t.harmony.counter = s.harmony.counter ∧
        t = { s with
          slots := t.slots
          line := t.line
          harmony := { s.harmony with
            ranks := s.harmony.ranks.set r
              { s.rank r with stage := .exhausted, claim := none, slot := none, localDue := false } } } ∧
        (s.rankTag r = none → t.slots = s.slots ∧ t.line = s.line) ∧
        (∀ u v, s.rankTag r = some u → s.voice u = some v →
          t.slots = s.slots.set u { s.slot u with voice := some { v with state := .releasingWithdraw none } } ∧
          (∀ y ∈ t.line.queue, y.record.isNoteStart u = false) ∧
          (s.line.state = .active → (s.slot u).announced = true ∨ s.line.announces u = true →
            ∃ y ∈ t.line.queue, y.record = .noteEnd u) ∧
          let kept := { s.line with queue := s.line.queue.filter fun y => !y.record.isNoteStart u }
          t.line = if (s.slot u).announced = true ∨ s.line.announces u = true then kept.enqueue (.noteEnd u) else kept)) ∧
    (∀ (before after : List Int) (i : Int), intervals.drop start = before ++ i :: after → (∀ j ∈ before, ¬ ok j) → ok i →
      ∃ number : Byte,
        (t.rank r).claim = some { number := number, note := note i } ∧ t.harmony.counter = number + 1 ∧
        (∀ q : Fin 3, q ≠ r → (s.rank q).outstanding = true → ∀ c ∈ (s.rank q).claim, c.number ≠ number) ∧
        (∃ k : Nat, k ≤ 2 ∧ number = s.harmony.counter + BitVec.ofNat 8 k ∧ ∀ j < k, ∃ q : Fin 3, ∃ c : Claim,
          q ≠ r ∧ (s.rank q).outstanding = true ∧ (s.rank q).claim = some c ∧
            c.number = s.harmony.counter + BitVec.ofNat 8 j) ∧
        (t.rank r).position = start + before.length ∧ (t.rank r).refused = (s.rank r).refused ∧
        (∀ u, s.Takes u → keep = false ∨ s.rankTag r = none →
          (t.rank r).slot = some u ∧ (∀ w : Fin 8, w ≠ u → t.slot w = s.slot w) ∧
          ∃ v, t.slot u = { s.slot u with gainCurrent := 0, gainTarget := 0, phase := 0, voice := some v } ∧
            v.state = .provisional ∧ v.role = .harmony r ∧ v.note = note i ∧ v.bank = lead.bank ∧
            v.baseCurrent = 1000 * (note i : Int) ∧ v.baseTarget = v.baseCurrent ∧ v.justCurrent = v.justTarget) ∧
        (∀ u v, keep = true → s.rankTag r = some u → s.voice u = some v →
          (t.rank r).slot = some u ∧ t.slots = s.slots.set u
            { s.slot u with voice := some { v with state := .provisional, note := note i, baseTarget := 1000 * note i } }) ∧
        (s.line.state = .active → (t.rank r).stage = .queued ∧ (t.rank r).queuedAge = 0 ∧
          ∃ y ∈ t.line.queue, y.record = .claim r number (note i)) ∧
        (s.line.state ≠ .active → (t.rank r).stage = .localPending ∧ (t.rank r).localDue = false ∧ t.line = s.line)) ∧
    ∀ q : Fin 3, q ≠ r → t.rank q = s.rank q

/-- STALE_CLAIM (R105): the CLAIM leaves the queue and the rank is LOCAL_PENDING, its claim, slot and lists kept. CLAIM_CONFIRM, and
LOCAL_RESOLUTION, once the rank has met a boundary, of a note no map entry holds (R57, R107, R108): the slot is SOUNDING, the rank
SOUNDING with its claim kept, and in ACTIVE the NOTE_START with the current level class is queued. (A root adoption due at the same
boundary is completed before LOCAL_RESOLUTION: stated where none is.) -/
def Obligations.ClaimTimersDecide : Prop :=
  (∀ (s : State) (r : Fin 3), s.Running → (s.rank r).stage = .queued → (s.rank r).queuedAge = 10 →
    exec (.staleClaim r) s = .next
      { s with line := { s.line with queue := s.line.queue.filter fun y => !y.record.isClaim r }
               harmony := { s.harmony with
                 ranks := s.harmony.ranks.set r { s.rank r with stage := .localPending, localDue := false } } }) ∧
  (∀ (s : State) (r : Fin 3) (c : Instr) (k : Claim) (u : Fin 8) (v : Voice), s.Running →
    ((c = .claimConfirm r ∧ (s.rank r).stage = .window ∧ (s.rank r).windowAge = 4) ∨
      (c = .localResolution r ∧ (s.rank r).stage = .localPending ∧ (s.rank r).localDue = true ∧
        s.pitch.settleCount < 16 ∧ ∀ e ∈ s.map.entries, e.note ≠ k.note)) →
    (s.rank r).claim = some k → (s.rank r).slot = some u → s.voice u = some v → v.state = .provisional →
    ∃ t, exec c s = .next t ∧
      t.slots = s.slots.set u { s.slot u with voice := some { v with state := .sounding } } ∧
      t.harmony = { s.harmony with ranks := s.harmony.ranks.set r { s.rank r with stage := .sounding, localDue := false } } ∧
      (s.line.state = .active → ∃ y ∈ t.line.queue, y.record = .noteStart u v.note v.role.onLine s.breath.levelClass) ∧
      (s.line.state ≠ .active → t.line = s.line) ∧
      t = { s with slots := t.slots, harmony := t.harmony, line := t.line })

/-- A yield (R98, R109, R110 to R113 for its causes), and LOCAL_RESOLUTION, once the rank has met a boundary, of a note the map holds,
which is one (R108): the slot is RELEASING in WITHDRAW mode with its NOTE_END placement, the CLAIM has left the queue, the note has
joined the refused list, the claim is gone; and from there the rank plans from the position after the yielded one (R100). Where no
candidate is left it is EXHAUSTED and nothing more happens. -/
def Obligations.RefusedClaimYields : Prop :=
  (∀ (s : State) (r : Fin 3) (k : Claim), s.Running → s.pitch.settleCount < 16 → (s.rank r).stage = .localPending →
    (s.rank r).localDue = true → (s.rank r).claim = some k → (∃ e ∈ s.map.entries, e.note = k.note) →
    exec (.localResolution r) s = .next (yieldRank r s)) ∧
  (∀ (s : State) (r : Fin 3) (k : Claim) (u : Fin 8) (v lead : Voice),
    (s.rank r).claim = some k → (s.rank r).slot = some u → s.voice u = some v → v.releasing = false →
    v.role = .harmony r → s.leadVoice = some lead →
    ∃ s', yieldRank r s = plan r ((s.rank r).position + 1) false s' ∧
      s'.slots = s.slots.set u { s.slot u with voice := some { v with state := .releasingWithdraw none } } ∧
      s'.rank r = { s.rank r with stage := .idle, claim := none, slot := none, localDue := false, refused :=
        if k.note ∈ (s.rank r).refused ∨ 3 ≤ (s.rank r).refused.length then (s.rank r).refused
        else (s.rank r).refused ++ [k.note] } ∧
      (∀ q : Fin 3, q ≠ r → s'.rank q = s.rank q) ∧
      (∀ y ∈ s'.line.queue, y.record.isClaim r = false ∧ y.record.isNoteStart u = false) ∧
      (s.line.state = .active → (s.slot u).announced = true ∨ s.line.announces u = true →
        ∃ y ∈ s'.line.queue, y.record = .noteEnd u) ∧
      ((s.slot u).announced = false → s.line.announces u = false → ∀ y ∈ s'.line.queue, y ∈ s.line.queue) ∧
      s' = { s with slots := s'.slots, harmony := { s.harmony with ranks := s'.harmony.ranks }, line := s'.line } ∧
      (((s.programOfBank lead.bank).rankPrograms.get r).intervals.length ≤ (s.rank r).position + 1 →
        yieldRank r s = { s' with harmony := { s'.harmony with
          ranks := s'.harmony.ranks.set r { s'.rank r with stage := .exhausted } } }))

/-! ### The Section Line -/

/-- The timers of the line. JOINING_COMPLETE and LISTEN_ONLY_END (R137, R139, R149): the line is ACTIVE, LINE_ACTIVE is raised, a
ROSTER is in the queue and the ROSTER timer is stopped. DECAY_TIMER_EXPIRY (R139, R156): the error counter falls by one and the timer
returns to 0. ROSTER_TIMER_EXPIRY (R148, R149): the timer stops and a ROSTER stands in the queue, behind everything queued before. -/
def Obligations.LineTimersExpire : Prop :=
  (∀ (s : State) (c : Instr), s.Running →
    ((c = .joiningComplete ∧ s.line.state = .joining ∧ s.line.joiningTimer = 200) ∨
      (c = .listenOnlyEnd ∧ s.line.state = .listenOnly ∧ s.line.errorCounter = 0)) → s.line.queue = [] →
    ∃ t, exec c s = .next t ∧ t.attn = true ∧
      t = { s with
        line := { s.line with state := .active, rosterTimer := none,
                              queue := [{ record := .roster, abandons := 0, underWay := false }] }
        panel := { s.panel with events := { s.panel.events with lineActive := .unmarked } } }) ∧
  (∀ s : State, s.Running → s.line.state = .listenOnly → s.line.decayTimer = 8 →
    exec .decayTimerExpiry s = .next
      { s with line := { s.line with errorCounter := s.line.errorCounter - 1, decayTimer := 0 } }) ∧
  (∀ s : State, s.Running → s.line.state = .active → s.line.rosterTimer = some 64 →
    ∃ t, exec .rosterTimerExpiry s = .next t ∧ t.line.rosterTimer = none ∧
      ((∃ y ∈ s.line.queue, y.record = .roster) → t.line = { s.line with rosterTimer := none }) ∧
      ((∀ y ∈ s.line.queue, y.record ≠ .roster) → s.line.queue.length < 16 →
        t.line = { s.line with rosterTimer := none
                               queue := s.line.queue ++ [{ record := .roster, abandons := 0, underWay := false }] }) ∧
      t = { s with line := t.line })

/-- Admission (R145 to R149). Outside ACTIVE nothing is admitted. A record that is no HELD and no ROSTER replaces the queued record of
its tag or rank in its place, or joins behind every record of its own and lower classes; into a full queue it joins in place of the
HELD admitted last. A HELD joins a queue with room and is dropped and counted at a full one. A ROSTER stops the ROSTER timer; where none
is queued it joins the end of the queue, at a full one in place of the HELD admitted last. -/
def Obligations.AdmissionReplacesOrJoins : Prop :=
  (∀ (l : Line) (r : Record), l.state ≠ .active → l.enqueue r = l) ∧
  (∀ (l : Line) (r : Record), l.state = .active → r.isHeld = false → r ≠ .roster →
    let same := fun x : Record =>
      match r, x with
      | .noteStart t _ _ _, .noteStart u _ _ _ => decide (t = u)
      | .noteStart t _ _ _, .noteEnd u => decide (t = u)
      | .noteEnd t, .noteStart u _ _ _ => decide (t = u)
      | .noteEnd t, .noteEnd u => decide (t = u)
      | .claim q _ _, .claim p _ _ => decide (q = p)
      | _, _ => false
    (∀ before after y, l.queue = before ++ y :: after → same y.record = true → (∀ x ∈ before, same x.record = false) →
      l.enqueue r = { l with queue := before ++ { record := r, abandons := 0, underWay := false } :: after }) ∧
    (l.queue.Pairwise (fun a b => a.record.cls ≤ b.record.cls) → (∀ y ∈ l.queue, same y.record = false) →
      l.queue.length < 16 →
      ∃ before after, l.queue = before ++ after ∧ (∀ y ∈ before, y.record.cls ≤ r.cls) ∧
        (∀ y ∈ after, r.cls < y.record.cls) ∧
        l.enqueue r = { l with queue := before ++ { record := r, abandons := 0, underWay := false } :: after }) ∧
    (∀ before held after, l.queue = before ++ held :: after → (∀ y ∈ l.queue, same y.record = false) →
      l.queue.length = 16 → held.record.isHeld = true → (∀ y ∈ after, y.record.isHeld = false) →
      (l.enqueue r).queue.Perm ({ record := r, abandons := 0, underWay := false } :: (before ++ after)) ∧
        l.enqueue r = { l with queue := (l.enqueue r).queue, heldDropped := min 65535 (l.heldDropped + 1) })) ∧
  (∀ (l : Line) (r : Record), l.state = .active → r.isHeld = true →
    (l.queue.length < 16 → l.queue.Pairwise (fun a b => a.record.cls ≤ b.record.cls) →
      ∃ before after, l.queue = before ++ after ∧ (∀ y ∈ before, y.record.cls ≤ 1) ∧ (∀ y ∈ after, 1 < y.record.cls) ∧
        l.enqueue r = { l with queue := before ++ { record := r, abandons := 0, underWay := false } :: after }) ∧
    (16 ≤ l.queue.length → l.enqueue r = { l with heldDropped := min 65535 (l.heldDropped + 1) })) ∧
  (∀ l : Line, l.state = .active →
    ((∃ y ∈ l.queue, y.record = .roster) → l.enqueue .roster = { l with rosterTimer := none }) ∧
    ((∀ y ∈ l.queue, y.record ≠ .roster) → l.queue.length < 16 →
      l.enqueue .roster = { l with rosterTimer := none
                                   queue := l.queue ++ [{ record := .roster, abandons := 0, underWay := false }] }) ∧
    (∀ before held after, l.queue = before ++ held :: after → (∀ y ∈ l.queue, y.record ≠ .roster) →
      l.queue.length = 16 → held.record.isHeld = true → (∀ y ∈ after, y.record.isHeld = false) →
      l.enqueue .roster = { l with rosterTimer := none, heldDropped := min 65535 (l.heldDropped + 1)
                                   queue := before ++ after ++ [{ record := .roster, abandons := 0, underWay := false }] }))

/-- TRANSMIT_START (R150, R152): an ACTIVE station takes part with its head record, which stays queued; a ROSTER's contents are the
SOUNDING slots as they stand, in tag order. -/
def Obligations.TransmitStartTakesHead : Prop :=
  ∀ (s : State) (head : Queued) (rest : List Queued), s.Running → s.Quiet → s.line.state = .active → s.line.queue = head :: rest →
    s.line.underWay = none →
    ∃ t p, exec .transmitStart s = .next t ∧
      t = { s with line := { s.line with queue := { head with underWay := true } :: rest, underWay := some p,
                                         readingAbandoned := false } } ∧
      match head.record with
      | .noteStart u n role c => p = .noteStart u n role c
      | .noteEnd u => p = .noteEnd u
      | .held a k n reason => p = .held a k n reason
      | .claim _ k n => p = .claim k n
      | .roster => ∃ es, p = .roster es ∧ es.Pairwise (fun a b => a.tag < b.tag) ∧
          ∀ e : RosterEntry, e ∈ es ↔ ∃ v, s.voice e.tag = some v ∧ v.state = .sounding ∧ e.note = v.note ∧
            e.role = v.role.onLine ∧ e.levelClass = s.breath.levelClass

/-- ARBITRATION_LOST (R153): to a lower header the station stops driving and keeps its record with its abandon count; no counter
moves. The header goes out class first, then station, then kind, so the lower header value is the lower class, then the lower station
number, then the lower kind code (R143, spec 11.2). -/
def Obligations.ArbitrationFollowsHeader : Prop :=
  (∀ (s : State) (winner : Byte) (p : Payload), s.Running → s.Quiet → s.line.underWay = some p →
    winner.toNat < (headerByte s.power.station p).toNat →
    exec (.arbitrationLost winner) s = .next
      { s with line := { s.line with underWay := none
                                     queue := s.line.queue.map fun y => { y with underWay := false } } }) ∧
  (∀ (a b : Fin 8) (p q : Payload),
    (headerByte a p).toNat < (headerByte b q).toNat ↔
      p.cls < q.cls ∨ (p.cls = q.cls ∧ (a < b ∨ (a = b ∧ p.kind < q.kind))))

/-- BIT_ERROR (R106, R138, R149, R151, R154, R156): the frame is abandoned and the error counter rises by 8. At 96 the line is
LISTEN_ONLY with nothing queued, every QUEUED rank LOCAL_PENDING and the event raised. Below it there is nothing to retry where the
record is no longer queued; a record is retried in its place; at its third abandonment it is dropped and counted, a CLAIM's rank is
LOCAL_PENDING and a ROSTER restarts its timer. -/
def Obligations.BitErrorAbandonsFrame : Prop :=
  (∀ (s : State) (p : Payload), s.Running → s.Quiet → s.line.underWay = some p →
    (96 ≤ min 255 (s.line.errorCounter + 8) →
      ∃ t, exec .bitError s = .next t ∧
        t.line = { s.line with state := .listenOnly, errorCounter := min 255 (s.line.errorCounter + 8), decayTimer := 0,
                               queue := [], rosterTimer := none, underWay := none, readingAbandoned := true } ∧
        (∀ r : Fin 3, (t.rank r) = if (s.rank r).stage = .queued then
          { s.rank r with stage := .localPending, localDue := false } else s.rank r) ∧
        t = { s with line := t.line, harmony := { s.harmony with ranks := t.harmony.ranks },
                     panel := { s.panel with events := { s.panel.events with lineListenOnly := .unmarked } } }) ∧
    (s.line.errorCounter + 8 < 96 → ∀ before after y, s.line.queue = before ++ y :: after → y.underWay = true →
      (∀ x ∈ before, x.underWay = false) → (∀ x ∈ after, x.underWay = false) → y.abandons + 1 < 3 →
      exec .bitError s = .next
        { s with line := { s.line with errorCounter := s.line.errorCounter + 8, underWay := none, readingAbandoned := true,
                                       queue := before ++ { y with abandons := y.abandons + 1, underWay := false } :: after } })) ∧
  (∀ (s : State) (p : Payload), s.Running → s.Quiet → s.line.underWay = some p → s.line.errorCounter + 8 < 96 →
    (∀ y ∈ s.line.queue, y.underWay = false) →
    exec .bitError s = .next
      { s with line := { s.line with errorCounter := s.line.errorCounter + 8, underWay := none, readingAbandoned := true } }) ∧
  (∀ (s : State) (p : Payload) (before after : List Queued) (y : Queued), s.Running → s.Quiet → s.line.underWay = some p →
    s.line.errorCounter + 8 < 96 → s.line.queue = before ++ y :: after → y.underWay = true →
    (∀ x ∈ before, x.underWay = false) → (∀ x ∈ after, x.underWay = false) → y.abandons + 1 = 3 →
    ∃ t, exec .bitError s = .next t ∧ t.line.queue = before ++ after ∧ t.line.underWay = none ∧
      t.line.errorCounter = s.line.errorCounter + 8 ∧ t.line.recordsDropped = min 65535 (s.line.recordsDropped + 1) ∧
      t.line.state = s.line.state ∧
      (t.line.rosterTimer = if y.record = .roster then some 0 else s.line.rosterTimer) ∧
      (∀ q k n, y.record = .claim q k n → (s.rank q).stage = .queued →
        t.rank q = { s.rank q with stage := .localPending, localDue := false }) ∧
      (∀ q, y.record.isClaim q = false → t.rank q = s.rank q) ∧
      t.slots = s.slots ∧ t.panel = s.panel ∧ t.map = s.map)

/-- OWN_FRAME_COMPLETE (R61, R104, R155): the error counter falls, the record under way leaves the queue, and the contents the frame
carried act: announced flags, the ROSTER timer, the claim window. -/
def Obligations.OwnCompletionActs : Prop :=
  ∀ (s : State) (p : Payload), s.Running → s.Quiet → s.line.underWay = some p →
    ∃ t, exec .ownFrameComplete s = .next t ∧
      t.line = { s.line with errorCounter := s.line.errorCounter - 1, underWay := none
                             queue := s.line.queue.filter fun y => !y.underWay
                             rosterTimer := match p with
                               | .roster _ => some 0
                               | _ => s.line.rosterTimer } ∧
      (∀ u : Fin 8, t.slot u = { s.slot u with announced :=
        match p with
        | .noteStart w _ _ _ => if u = w then true else (s.slot u).announced
        | .noteEnd w => if u = w then false else (s.slot u).announced
        | .roster es => if es.any (fun e => decide (e.tag = u)) then true else (s.slot u).announced
        | _ => (s.slot u).announced }) ∧
      ((∀ k n, p ≠ .claim k n) → t.harmony = s.harmony) ∧
      (∀ k n, p = .claim k n →
        ((∀ r : Fin 3, (s.rank r).stage = .queued → ∀ c ∈ (s.rank r).claim, c.number ≠ k) → t.harmony = s.harmony) ∧
        (∀ (r : Fin 3) (c : Claim), (s.rank r).stage = .queued → (s.rank r).claim = some c → c.number = k →
          (∀ q : Fin 3, q < r → (s.rank q).stage = .queued → ∀ d ∈ (s.rank q).claim, d.number ≠ k) →
          t.harmony = { s.harmony with ranks := s.harmony.ranks.set r { s.rank r with stage := .window, windowAge := 0 } })) ∧
      t = { s with line := t.line, slots := t.slots, harmony := t.harmony }

/-- LINE_FRAME_BROKEN and FRAME_DISCARDED (R142, R143, R154, R194, R195): a frame that breaks off or fails its tests is counted, up
to 65535, and changes nothing else. The station's own abandoned frame is not counted where it breaks off, nor where its reading ends at
a length its kind does not allow (the latter the model's reading, assumption 14). The tests: the CRC, the kind, the length, the class of
the kind, tags and stations at most 7, notes at most 127, a reason of 0 or 1; and a good frame's fields are within their ranges. A
DISABLED line takes no frame and counts none that breaks off. -/
def Obligations.BadFramesAreCountedOnly : Prop :=
  (∀ (s : State) (bits : List Bool), s.Running → s.Quiet → s.line.state ≠ .disabled → readBits bits = .broken →
    (s.line.readingAbandoned = false → exec (.lineFrameBroken bits) s = .next
      { s with line := { s.line with badFrames := min 65535 (s.line.badFrames + 1) } }) ∧
    (s.line.readingAbandoned = true → exec (.lineFrameBroken bits) s = .next
      { s with line := { s.line with readingAbandoned := false } })) ∧
  (∀ (s : State) (frame : List Byte), s.Running → s.Quiet → s.line.state ≠ .disabled → verdict frame = .discard →
    let stopped := ∃ h l rest, frame = h :: l :: rest ∧ allowedLength (h.toNat % 8) l.toNat = some false
    (s.line.readingAbandoned = true → stopped →
      exec (.frameDiscarded frame) s = .next { s with line := { s.line with readingAbandoned := false } }) ∧
    (s.line.readingAbandoned = false ∨ ¬ stopped → exec (.frameDiscarded frame) s = .next
      { s with line := { s.line with badFrames := min 65535 (s.line.badFrames + 1), readingAbandoned := false } })) ∧
  (∀ (s : State) (frame : List Byte) (bits : List Bool), s.Quiet → s.line.state = .disabled →
    exec (.lineFrameBroken bits) s = .next s ∧
    exec (.frameDiscarded frame) s = .next s ∧ exec (.duplicateFrame frame) s = .next s ∧
    exec (.peerNoteStart frame) s = .next s ∧ exec (.peerNoteEnd frame) s = .next s ∧
    exec (.peerRoster frame) s = .next s ∧ exec (.peerClaim frame) s = .next s ∧ exec (.peerHeld frame) s = .next s) ∧
  (∀ kind length : Nat, allowedLength kind length = some false ↔
    (kind = 1 ∧ length ≠ 3) ∨ (kind = 2 ∧ length ≠ 1) ∨ (kind = 3 ∧ length ≠ 4) ∨ (kind = 4 ∧ length ≠ 2) ∨
      (kind = 5 ∧ ∀ c ≤ 8, length ≠ 1 + 3 * c)) ∧
  (∀ (h l c0 c1 : Byte) (payload : List Byte), payload.length = l.toNat →
    let beyond := fun (i limit : Nat) => ∃ b, payload[i]? = some b ∧ limit < b.toNat
    ([c0, c1] ≠ crcBytes (h :: l :: payload) ∨ h.toNat % 8 ∉ [1, 2, 3, 4, 5] ∨
      (h.toNat % 8 = 1 ∧ (l.toNat ≠ 3 ∨ h.toNat / 64 ≠ 0 ∨ beyond 0 7 ∨ beyond 1 127)) ∨
      (h.toNat % 8 = 2 ∧ (l.toNat ≠ 1 ∨ h.toNat / 64 ≠ 0 ∨ beyond 0 7)) ∨
      (h.toNat % 8 = 3 ∧ (l.toNat ≠ 4 ∨ h.toNat / 64 ≠ 1 ∨ beyond 0 7 ∨ beyond 2 127 ∨ beyond 3 1)) ∨
      (h.toNat % 8 = 4 ∧ (l.toNat ≠ 2 ∨ h.toNat / 64 ≠ 2 ∨ beyond 1 127)) ∨
      (h.toNat % 8 = 5 ∧ (h.toNat / 64 ≠ 3 ∨ (∀ c ∈ payload.head?, 8 < c.toNat ∨ l.toNat ≠ 1 + 3 * c.toNat) ∨
        ∃ i, beyond (1 + 3 * i) 7 ∨ beyond (2 + 3 * i) 127))) →
    verdict (h :: l :: payload ++ [c0, c1]) = .discard) ∧
  (∀ (frame : List Byte) (f : LineFrame), verdict frame = .good f →
    match f.payload with
    | .noteStart _ n _ c => n ≤ 127 ∧ c ≤ 3
    | .noteEnd _ => True
    | .held _ _ n _ => n ≤ 127
    | .claim _ n => n ≤ 127
    | .roster es => es.length ≤ 8 ∧ ∀ e ∈ es, e.note ≤ 127 ∧ e.levelClass ≤ 3)

/-- DUPLICATE_FRAME (R131, R132, R138, R140): the event and DUPLICATE_HOLD; from ACTIVE the queue is emptied, the ROSTER timer stopped
and every QUEUED rank LOCAL_PENDING; the map is untouched. -/
def Obligations.DuplicateFrameHoldsLine : Prop :=
  ∀ (s : State) (frame : List Byte) (f : LineFrame), s.Running → s.Quiet → s.line.state ≠ .disabled → verdict frame = .good f →
    f.station = s.power.station →
    ∃ t, exec (.duplicateFrame frame) s = .next t ∧ t.line.state = .duplicateHold ∧ t.attn = true ∧
      t.line.errorCounter = s.line.errorCounter ∧ t.line.badFrames = s.line.badFrames ∧
      t.line.recordsDropped = s.line.recordsDropped ∧
      (s.line.state = .active → t.line.queue = [] ∧ t.line.rosterTimer = none ∧ t.line.underWay = none ∧
        ∀ r : Fin 3, t.rank r = if (s.rank r).stage = .queued then
          { s.rank r with stage := .localPending, localDue := false } else s.rank r) ∧
      (s.line.state ≠ .active → t.harmony = s.harmony ∧ t.line.queue = s.line.queue) ∧
      t = { s with line := t.line, harmony := { s.harmony with ranks := t.harmony.ranks }
                   panel := { s.panel with events := { s.panel.events with duplicateStation := .unmarked } } }

/-! ### Peer frames -/

/-- PEER_NOTE_START (R121, R125): the station is present at age 0, the entry of its station and tag is the one sent, every other entry
stands; where no rank has a claim on the note nothing else changes. A LEAD entry makes the rank whose claim is on its note yield in any
stage that holds a claim; so does a HARMONY entry, but for a SOUNDING rank of a station with the lower number, which keeps its note
(R112, R113). The yield (see RefusedClaimYields) sees the new entry; where the rank's intervals leave nothing to plan it is EXHAUSTED. -/
def Obligations.PeerNoteStartPlacesAndYields : Prop :=
  (∀ (s : State) (frame : List Byte) (st u : Fin 8) (n c : Nat) (role : LineRole), s.Running → s.Quiet →
    s.line.state ≠ .disabled →
    verdict frame = .good { station := st, payload := .noteStart u n role c } → st ≠ s.power.station →
    s.map.entries.Pairwise (fun a b => a.key < b.key) →
    ∃ t, exec (.peerNoteStart frame) s = .next t ∧
      t.map.stations = s.map.stations.set st { present := true, age := 0 } ∧
      t.map.entries.Pairwise (fun a b => a.key < b.key) ∧
      (∀ e : MapEntry, e ∈ t.map.entries ↔
        e = { station := st, tag := u, note := n, role := role, levelClass := c } ∨
          (e ∈ s.map.entries ∧ ¬ (e.station = st ∧ e.tag = u))) ∧
      ((∀ r : Fin 3, (s.rank r).claims n = false) →
        t = { s with map := t.map, line := { s.line with readingAbandoned := false } })) ∧
  (∀ (s : State) (frame : List Byte) (st u : Fin 8) (n c : Nat) (role : LineRole) (r : Fin 3) (k : Claim),
    s.Running → s.Quiet → s.line.state ≠ .disabled →
    verdict frame = .good { station := st, payload := .noteStart u n role c } → st ≠ s.power.station →
    (s.rank r).stage ∈ [.queued, .window, .localPending, .sounding] → (s.rank r).claim = some k → k.note = n →
    (∀ q : Fin 3, q ≠ r → (s.rank q).claims n = false) →
    ∃ t s', exec (.peerNoteStart frame) s = .next t ∧
      s' = { s with map := t.map, line := { s.line with readingAbandoned := false } } ∧
      (role = .lead ∨ (s.rank r).stage ≠ .sounding ∨ st < s.power.station → t = yieldRank r s') ∧
      (role = .harmony ∧ (s.rank r).stage = .sounding ∧ s.power.station < st → t = s') ∧
      (∀ lead, s.leadVoice = some lead → (∀ w ∈ (s.rank r).slot, ∀ v ∈ s.voice w, v.role = .harmony r) →
        ((s.programOfBank lead.bank).rankPrograms.get r).intervals.length ≤ (s.rank r).position + 1 →
        role = .lead ∨ (s.rank r).stage ≠ .sounding ∨ st < s.power.station →
          (t.rank r).stage = .exhausted ∧ (t.rank r).claim = none ∧ (t.rank r).slot = none ∧
          (∀ w, s.rankTag r = some w → ∃ v, t.voice w = some v ∧ v.state = .releasingWithdraw none) ∧
          ∀ y ∈ t.line.queue, y.record.isClaim r = false) ∧
      (∀ q : Fin 3, q ≠ r → t.rank q = s.rank q))

/-- PEER_NOTE_END (R121, R126): the station is present at age 0 and the entry of its station and tag, if held, is gone; nothing is
handed on. STATION_EXPIRY (R122, R129): the peer is absent, its entries are gone, the others stand, and nothing is handed on; the age 0
of the absent record is the model's choice (assumption 20). -/
def Obligations.NoteEndAndExpiryRemoveEntries : Prop :=
  (∀ (s : State) (frame : List Byte) (st u : Fin 8), s.Running → s.Quiet → s.line.state ≠ .disabled →
    verdict frame = .good { station := st, payload := .noteEnd u } → st ≠ s.power.station →
    ∃ t, exec (.peerNoteEnd frame) s = .next t ∧
      t = { s with map := { entries := s.map.entries.filter fun e => !(decide (e.station = st) && decide (e.tag = u))
                            stations := s.map.stations.set st { present := true, age := 0 } }
                   line := { s.line with readingAbandoned := false } }) ∧
  (∀ (s : State) (st : Fin 8), s.Running → (s.map.stations.get st).present = true → (s.map.stations.get st).age = 200 →
    exec (.stationExpiry st) s = .next
      { s with map := { entries := s.map.entries.filter fun e => decide (e.station ≠ st)
                        stations := s.map.stations.set st { present := false, age := 0 } } })

/-- PEER_ROSTER (R121, R127): the station's entries are those listed, the last listing of a tag standing, and the entries of other
stations are as they were; where no rank holds a claim nothing else changes. The whole roster is entered first; then each of the
station's entries is checked, in tag order, against every rank, in rank order, as the ranks then stand (R112 to R114, R129): a rank
whose claim is on the entry's note yields to a LEAD entry in any stage that holds a claim, and to a HARMONY entry in QUEUED, WINDOW and
LOCAL_PENDING, and in SOUNDING when the own station number is the higher. -/
def Obligations.PeerRosterReplacesEntries : Prop :=
  (∀ (s : State) (frame : List Byte) (st : Fin 8) (es : List RosterEntry), s.Running → s.Quiet →
    s.line.state ≠ .disabled → verdict frame = .good { station := st, payload := .roster es } →
    st ≠ s.power.station → s.map.entries.Pairwise (fun a b => a.key < b.key) →
    ∃ (t : State) (placed : List MapEntry), exec (.peerRoster frame) s = .next t ∧
      t.map.stations = s.map.stations.set st { present := true, age := 0 } ∧
      t.map.entries.Pairwise (fun a b => a.key < b.key) ∧
      (∀ e : MapEntry, e ∈ t.map.entries ↔
        (e.station ≠ st ∧ e ∈ s.map.entries) ∨
          (e.station = st ∧ ∃ before after x, es = before ++ x :: after ∧ e = x.entry st ∧
            ∀ y ∈ after, y.tag ≠ x.tag)) ∧
      placed.Pairwise (fun a b : MapEntry => a.tag < b.tag) ∧
      (∀ e : MapEntry, e ∈ placed ↔ e.station = st ∧ e ∈ t.map.entries) ∧
      t = placed.foldl
        (fun x e => ([0, 1, 2] : List (Fin 3)).foldl (fun x r => if x.yieldsTo r e = true then yieldRank r x else x) x)
        { s with map := t.map, line := { s.line with readingAbandoned := false } } ∧
      ((∀ r : Fin 3, (s.rank r).claim = none) →
        t = { s with map := t.map, line := { s.line with readingAbandoned := false } })) ∧
  (∀ (s : State) (r : Fin 3) (e : MapEntry), s.yieldsTo r e = true ↔
    (∃ k, (s.rank r).claim = some k ∧ k.note = e.note) ∧
      ((s.rank r).stage ∈ [.queued, .window, .localPending] ∨
        ((s.rank r).stage = .sounding ∧ (e.role = .lead ∨ e.station < s.power.station))))

/-- PEER_CLAIM (R111, R115, R128). Where no rank is QUEUED or LOCAL_PENDING on the note: the entries stand, the station is present, and
in ACTIVE with room in the queue a HELD is queued exactly when a slot is SOUNDING on the note (SOUNDING) or, failing that, a rank is in
WINDOW on it (EARLIER_CLAIM). A QUEUED or LOCAL_PENDING rank on the note yields (see RefusedClaimYields), with no HELD where nothing of
the station sounds or waits in WINDOW on the note; where the rank's intervals leave nothing to plan it is EXHAUSTED. -/
def Obligations.PeerClaimYieldsOrIsAnswered : Prop :=
  (∀ (s : State) (frame : List Byte) (st : Fin 8) (k : Byte) (n : Nat), s.Running → s.Quiet → s.line.state ≠ .disabled →
    verdict frame = .good { station := st, payload := .claim k n } → st ≠ s.power.station →
    (∀ r : Fin 3, (s.rank r).claims n = true → (s.rank r).stage ≠ .queued ∧ (s.rank r).stage ≠ .localPending) →
    s.line.queue.length < 16 →
    let sounds := ∃ u v, s.voice u = some v ∧ v.state = .sounding ∧ v.note = n
    let windowed := ∃ r : Fin 3, (s.rank r).stage = .window ∧ (s.rank r).claims n = true
    ∃ t, exec (.peerClaim frame) s = .next t ∧
      t.map = { s.map with stations := s.map.stations.set st { present := true, age := 0 } } ∧
      (s.line.state = .active → sounds →
        t.line.queue.Perm ({ record := .held st k n .sounding, abandons := 0, underWay := false } :: s.line.queue)) ∧
      (s.line.state = .active → ¬ sounds → windowed →
        t.line.queue.Perm ({ record := .held st k n .earlierClaim, abandons := 0, underWay := false } :: s.line.queue)) ∧
      (s.line.state ≠ .active ∨ (¬ sounds ∧ ¬ windowed) → t.line.queue = s.line.queue) ∧
      t = { s with map := t.map, line := { s.line with readingAbandoned := false, queue := t.line.queue } }) ∧
  (∀ (s : State) (frame : List Byte) (st : Fin 8) (number : Byte) (n : Nat) (r : Fin 3) (k : Claim),
    s.Running → s.Quiet → s.line.state ≠ .disabled →
    verdict frame = .good { station := st, payload := .claim number n } →
    st ≠ s.power.station → ((s.rank r).stage = .queued ∨ (s.rank r).stage = .localPending) →
    (s.rank r).claim = some k → k.note = n → (∀ q : Fin 3, q ≠ r → (s.rank q).claims n = false) →
    (∀ u v, s.voice u = some v → v.state = .sounding → v.note ≠ n) →
    ∃ t, exec (.peerClaim frame) s = .next t ∧
      t = yieldRank r { s with map := { s.map with stations := s.map.stations.set st { present := true, age := 0 } },
                               line := { s.line with readingAbandoned := false } } ∧
      (∀ y ∈ t.line.queue, y.record.isHeld = true → y ∈ s.line.queue) ∧
      (∀ q : Fin 3, q ≠ r → t.rank q = s.rank q) ∧ t.map.entries = s.map.entries ∧
      (∀ lead, s.leadVoice = some lead → (∀ w ∈ (s.rank r).slot, ∀ v ∈ s.voice w, v.role = .harmony r) →
        ((s.programOfBank lead.bank).rankPrograms.get r).intervals.length ≤ (s.rank r).position + 1 →
        (t.rank r).stage = .exhausted ∧ (t.rank r).claim = none ∧ (t.rank r).slot = none ∧
        (k.note ∈ (t.rank r).refused ∨ 3 ≤ (t.rank r).refused.length) ∧
        ∀ y ∈ t.line.queue, y.record.isClaim r = false))

/-- PEER_HELD (R110, R128): one that is addressed to another station, or matches no live claim, refreshes its sender and does nothing
more; one that matches a rank in WINDOW, LOCAL_PENDING or SOUNDING yields that rank (see RefusedClaimYields), which is EXHAUSTED where its
intervals leave nothing to plan. -/
def Obligations.PeerHeldYieldsMatchingRank : Prop :=
  ∀ (s : State) (frame : List Byte) (st addressed : Fin 8) (number : Byte) (n : Nat) (reason : HeldReason),
    s.Running → s.Quiet → s.line.state ≠ .disabled →
    verdict frame = .good { station := st, payload := .held addressed number n reason } → st ≠ s.power.station →
    ∃ t s', exec (.peerHeld frame) s = .next t ∧
      s' = { s with map := { s.map with stations := s.map.stations.set st { present := true, age := 0 } },
                    line := { s.line with readingAbandoned := false } } ∧
      t.map = s'.map ∧
      ((addressed ≠ s.power.station ∨ ∀ r : Fin 3, (s.rank r).claim = some { number := number, note := n } →
          (s.rank r).stage ∉ [.window, .localPending, .sounding]) → t = s') ∧
      (∀ r : Fin 3, addressed = s.power.station →
        (s.rank r).claim = some { number := number, note := n } → (s.rank r).stage ∈ [.window, .localPending, .sounding] →
        (∀ q : Fin 3, q < r → (s.rank q).claim ≠ some { number := number, note := n }) →
        t = yieldRank r s' ∧
        ∀ lead, s.leadVoice = some lead → (∀ w ∈ (s.rank r).slot, ∀ v ∈ s.voice w, v.role = .harmony r) →
          ((s.programOfBank lead.bank).rankPrograms.get r).intervals.length ≤ (s.rank r).position + 1 →
          (t.rank r).stage = .exhausted ∧ (t.rank r).claim = none ∧
            (n ∈ (t.rank r).refused ∨ 3 ≤ (t.rank r).refused.length) ∧
            ∀ w, s.rankTag r = some w → ∃ v, t.voice w = some v ∧ v.state = .releasingWithdraw none)

/-! ### Rendering -/

/-- One sample period (R159, R160, R169 to R173): the stream frame carries, on both channels alike, the sample of the period before
while LOADED and zero else, as a 24-bit two's complement word, most significant bit first; every voice's phase advances by its
increment; the sum of the voices' outputs at the next sample of the block (past the forty-eighth, which no boundary has ended, at the
forty-eighth again: the model's choice, assumption 12) is scaled and saturated; a saturated sample is counted and raises CLIP; nothing
else moves. -/
def Obligations.SamplePeriod : Prop :=
  ∀ s : State, s.Running → s.Quiet →
    ∃ t, exec .sample s = .next t ∧
      t.audio.sent.right = t.audio.sent.left ∧
      (-8388608 ≤ s.audio.engineSample → s.audio.engineSample ≤ 8388607 →
        t.audio.sent.left.toInt = if s.image?.isSome then s.audio.engineSample else 0) ∧
      t.audio.sent.bits.length = 48 ∧
      (∀ i < 24, t.audio.sent.bits[i]? = some (t.audio.sent.left.getLsbD (23 - i)) ∧
        t.audio.sent.bits[24 + i]? = some (t.audio.sent.right.getLsbD (23 - i))) ∧
      t.audio.sampleIndex = min 48 (s.audio.sampleIndex + 1) ∧
      (∀ u : Fin 8, t.slot u = { s.slot u with phase := match s.voice u with
        | some v => (s.slot u).phase + BitVec.ofNat 32 v.increment
        | none => (s.slot u).phase }) ∧
      t.audio.mix = ([0, 1, 2, 3, 4, 5, 6, 7].map fun u : Fin 8 => t.slotOutput t.audio.sampleIndex (t.slot u)).sum ∧
      (∀ u : Fin 8, t.voice u = none → t.slotOutput t.audio.sampleIndex (t.slot u) = 0) ∧
      (let m : Int := (t.masterGain : Int)
       let scaled := (t.audio.mix * m).fdiv 256
       t.audio.engineSample = max (-8388608) (min 8388607 scaled) ∧
       (t.audio.engineSample = scaled → t.audio.clipCount = s.audio.clipCount ∧ t.panel = s.panel) ∧
       (t.audio.engineSample ≠ scaled → t.audio.clipCount = min 65535 (s.audio.clipCount + 1) ∧
         t.panel = { s.panel with events := { s.panel.events with clip := .unmarked } })) ∧
      t = { s with slots := t.slots, audio := t.audio, panel := t.panel }

/-- R163: the wave lookup of a contributing slot: the position and the fraction of the phase, the floor interpolation, the closing of
the cycle, the bounds of the result, and its use twice at one phase, in the soft and in the bright table. The low 16 bits change no
lookup; the advance adds the increment to the whole phase, so that they carry into later ones. -/
def Obligations.WaveLookupInterpolates : Prop :=
  (∀ (table : List Int) (phase : BitVec 32),
    let i := (phase >>> 24).toNat
    let fr := ((phase >>> 16).toNat % 256 : Nat)
    let a := table.getD i 0
    let b := table.getD ((i + 1) % 256) 0
    i ≤ 255 ∧ lookupWave table phase = a + ((b - a) * (fr : Int)).fdiv 256 ∧
      min a b ≤ lookupWave table phase ∧ lookupWave table phase ≤ max a b ∧
      (i = 255 → b = table.getD 0 0) ∧
      (∀ low : BitVec 16, lookupWave table (phase.extractLsb' 16 16 ++ low : BitVec 32) = lookupWave table phase) ∧
      (table.length = 256 → (∀ x ∈ table, -32768 ≤ x ∧ x ≤ 32767) →
        -32768 ≤ lookupWave table phase ∧ lookupWave table phase ≤ 32767)) ∧
  (∀ (x : Slot) (v : Voice), x.voice = some v →
    (advancePhase x).phase.toNat = (x.phase.toNat + v.increment) % 4294967296) ∧
  (∀ (s : State) (k : Nat) (x : Slot) (v : Voice), x.voice = some v →
    let p := s.programOfBank v.bank
    let soft := lookupWave (s.wave p.softWave) x.phase
    let bright := lookupWave (s.wave p.brightWave) x.phase
    s.slotOutput k x =
      (blend soft bright (brightness s.breath.level p.depth) * rampGain x.gainCurrent x.gainTarget k).fdiv 32768)

/-- R166: the ramp of a block: straight from the gain current to the gain target, truncated toward the start, exact at the
forty-eighth sample, never beyond either end; a flat block renders at its gain; the gain current of the next block is that target. And
the output of a slot (R165, R168): the blend of its voice's two waves by breath level and depth, scaled by the ramp's gain with a floor
shift; between −32767 and 32766 for waves of 16 bits, gains and levels in range; nothing from a FREE slot. -/
def Obligations.GainRampAndVoiceOutput : Prop :=
  (∀ start target k : Nat, 1 ≤ k → k ≤ 48 →
    rampGain start target k = (start : Int) + Int.tdiv (((target : Int) - start) * k) 48 ∧
    rampGain start target 48 = target ∧
    (min start target : Nat) ≤ rampGain start target k ∧ rampGain start target k ≤ (max start target : Nat) ∧
    (start = target → rampGain start target k = start) ∧
    (start ≤ 32767 → target ≤ 32767 → 0 ≤ rampGain start target k ∧ rampGain start target k ≤ 32767) ∧
    (start ≤ target → (rampGain start target k - start) * 48 ≤ ((target : Int) - start) * k) ∧
    (target ≤ start → (rampGain start target k - start) * 48 ≥ ((target : Int) - start) * k)) ∧
  (∀ (s : State) (x : Slot), x.voice.isSome = true → (s.gainStep x).gainCurrent = x.gainTarget) ∧
  (∀ (s : State) (k : Nat) (x : Slot), x.voice = none → s.slotOutput k x = 0) ∧
  (∀ (s : State) (k : Nat) (x : Slot) (v : Voice) (img : Image), x.voice = some v → s.loader.image = .loaded img →
    1 ≤ k → k ≤ 48 →
    (∀ w ∈ img.waves, w.length = 256 ∧ ∀ x ∈ w, -32768 ≤ x ∧ x ≤ 32767) → img.waves.length = 16 →
    let p := s.programOfBank v.bank
    p.softWave ≤ 15 → p.brightWave ≤ 15 → p.depth ≤ 32767 → s.breath.level ≤ 32767 →
    x.gainCurrent ≤ 32767 → x.gainTarget ≤ 32767 →
    let soft := lookupWave (img.waves.getD p.softWave []) x.phase
    let bright := lookupWave (img.waves.getD p.brightWave []) x.phase
    let w : Int := ((s.breath.level * p.depth / 32768 : Nat) : Int)
    let blended := soft + ((bright - soft) * w).fdiv 32768
    s.slotOutput k x = (blended * rampGain x.gainCurrent x.gainTarget k).fdiv 32768 ∧
      0 ≤ w ∧ w ≤ 32766 ∧ min soft bright ≤ blended ∧ blended ≤ max soft bright ∧
      -32767 ≤ s.slotOutput k x ∧ s.slotOutput k x ≤ 32766)

/-! ### The Panel Port -/

/-- PANEL_TRANSFER (R182, R183): the oldest out record goes out and is removed, or an IDLE goes out; its byte 1 carries the free space
of the in FIFO and the more-records flag as they stood; an IDLE message is not offered, any other joins the in FIFO, and at a full one
is dropped with PANEL_OVERRUN. PANEL_TRANSFER_ABORTED (R182): nothing is taken and nothing removed. -/
def Obligations.PanelTransferMovesBothWays : Prop :=
  (∀ (s : State) (m : Octets), s.Running → s.Quiet → s.panel.inFifo.length ≤ 8 →
    ∃ t sent, exec (.panelTransfer m) s = .next t ∧ t.panel.lastSent = some sent ∧
      t.panel.outFifo = s.panel.outFifo.tail ∧
      sent.b1.toNat % 16 = 8 - s.panel.inFifo.length ∧
      sent.b1.getLsbD 7 = decide (2 ≤ s.panel.outFifo.length) ∧
      (s.panel.outFifo = [] → sent = { b0 := 0, b1 := sent.b1, b2 := 0, b3 := 0, b4 := 0, b5 := 0, b6 := 0, b7 := 0 }) ∧
      (∀ r rest, s.panel.outFifo = r :: rest →
        sent = r.bytes (8 - s.panel.inFifo.length) (decide (2 ≤ s.panel.outFifo.length))) ∧
      (m.b0 = 0 → t.panel.inFifo = s.panel.inFifo ∧ t.panel.events = s.panel.events) ∧
      (m.b0 ≠ 0 → s.panel.inFifo.length < 8 →
        t.panel.inFifo = s.panel.inFifo ++ [m] ∧ t.panel.events = s.panel.events) ∧
      (m.b0 ≠ 0 → s.panel.inFifo.length = 8 →
        t.panel.inFifo = s.panel.inFifo ∧ t.panel.events = { s.panel.events with panelOverrun := .unmarked }) ∧
      t = { s with panel := { s.panel with lastSent := t.panel.lastSent, outFifo := t.panel.outFifo,
                                           inFifo := t.panel.inFifo, events := t.panel.events } }) ∧
  (∀ s : State, exec .panelTransferAborted s = .next s)

/-- TRANSPOSE, TUNING, KEY, RANKS and a message of unknown kind at the head of the in FIFO (R183, R185, R186): the message is removed;
the value fixed waits, clamped, key mod 12 with its scale set; an empty scale set is refused with BAD_VALUE and an unknown kind with
BAD_MESSAGE. A message that may be refused, and a STATUS, waits untouched while the out FIFO has no room for what it may place. -/
def Obligations.SettingsWaitOrAreRefused : Prop :=
  ∀ (s : State) (m : Octets) (rest : List Octets), s.Running → s.panel.inFifo = m :: rest →
    (m.b0 = 2 → s.panel.outFifo.length ≤ 8 → exec .transpose s = .next
      { s with panel := { s.panel with inFifo := rest, waitTranspose := some (max (-12) (min 12 m.b1.toInt)),
                                       transposeDue := false } }) ∧
    (m.b0 = 3 → s.panel.outFifo.length ≤ 8 → exec .tuning s = .next
      { s with panel := { s.panel with inFifo := rest
                                       waitTuning := some (max (-500) (min 500 (m.b1 ++ m.b2 : BitVec 16).toInt)),
                                       tuningDue := false } }) ∧
    (m.b0 = 4 → s.panel.outFifo.length < 8 →
      (∀ i < 8, (scaleSet m.b2 m.b3).getLsbD i = m.b3.getLsbD i) ∧
      (∀ i < 4, (scaleSet m.b2 m.b3).getLsbD (8 + i) = m.b2.getLsbD i) ∧
      (scaleSet m.b2 m.b3 ≠ 0 → exec .key s = .next
        { s with panel := { s.panel with inFifo := rest, waitKey := some (m.b1.toNat % 12, scaleSet m.b2 m.b3),
                                         keyDue := false } }) ∧
      (scaleSet m.b2 m.b3 = 0 → exec .key s = .next
        { s with panel := { s.panel with inFifo := rest, outFifo := s.panel.outFifo ++ [.refused .badValue 4] } })) ∧
    (m.b0 = 5 → s.panel.outFifo.length ≤ 8 → ∃ set : BitVec 3, (∀ i < 3, set.getLsbD i = m.b1.getLsbD i) ∧
      exec .ranks s = .next { s with panel := { s.panel with inFifo := rest, waitRanks := some set, ranksDue := false } }) ∧
    (10 < m.b0.toNat → s.panel.outFifo.length < 8 → exec .badMessage s = .next
      { s with panel := { s.panel with inFifo := rest, outFifo := s.panel.outFifo ++ [.refused .badMessage m.b0] } }) ∧
    (8 ≤ s.panel.outFifo.length → exec .program s = .next s ∧ exec .key s = .next s ∧ exec .badMessage s = .next s) ∧
    (4 < s.panel.outFifo.length → exec .status s = .next s)

/-- PROGRAM n at the head of the in FIFO (R69, R70, R186): the first row of the table of R69 that applies. -/
def Obligations.ProgramTakesFirstRow : Prop :=
  ∀ (s : State) (m : Octets) (rest : List Octets), s.Running → s.panel.inFifo = m :: rest → m.b0 = 1 →
    s.panel.outFifo.length < 8 →
    let n := m.b1.toNat
    let current := s.banks.selector
    let other := s.banks.selector.other
    let ready := fun b : BankId => ∃ h, s.bank b = .ready h ∧ h.number = n
    let keeps := ∃ k h, s.bank other = .pending k (some h) ∧ h.number = n
    let loaded := { s.panel with inFifo := rest, events := { s.panel.events with programLoaded := .unmarked } }
    (s.programCount ≤ n → exec .program s = .next
      { s with panel := { s.panel with inFifo := rest, outFifo := s.panel.outFifo ++ [.refused .badProgram 1] } }) ∧
    (n < s.programCount → ∃ t, exec .program s = .next t ∧ t.loader.image = s.loader.image ∧
      t = { s with banks := t.banks, loader := t.loader, panel := t.panel } ∧
      t.bank current = s.bank current ∧
      (ready current → t.panel = loaded ∧ t.banks.selector = current ∧
        (t.bank other = match s.bank other with
          | .pending _ (some h) => .ready h
          | .ready h => .ready h
          | _ => .empty) ∧
        (∀ k b j, s.bank other = .loading k → s.loader.reading = some (.programRead b j) → t.loader.reading = none) ∧
        ((∀ k, s.bank other ≠ .loading k) → t.loader = s.loader)) ∧
      (¬ ready current → ready other →
        t.panel = loaded ∧ t.banks = { s.banks with selector := other } ∧ t.loader = s.loader) ∧
      (¬ ready current → keeps → t.panel = loaded ∧ t.banks.selector = other ∧ t.loader = s.loader ∧
        ∃ k h, s.bank other = .pending k (some h) ∧ t.bank other = .ready h) ∧
      (¬ ready current → ¬ ready other → ¬ keeps →
        t.panel = { s.panel with inFifo := rest } ∧ t.banks.selector = current ∧
        ((∃ u v, s.voice u = some v ∧ v.bank = other) → t.loader = s.loader ∧
          t.bank other = .pending n (match s.bank other with
            | .ready h => some h
            | .pending _ h => h
            | _ => none)) ∧
        ((∀ u v, s.voice u = some v → v.bank ≠ other) →
          t.bank other = .loading n ∧ t.loader = { s.loader with reading := some (.programRead other n) })))

/-- ALL_OFF (R60, R62, R117): every PROVISIONAL or SOUNDING slot is RELEASING in NORMAL mode, fading slots keep their fades, an announced
tag's NOTE_END is queued in ACTIVE, and every rank is IDLE with nothing kept; the articulation stays, and so does everything else. -/
def Obligations.AllOffReleasesVoices : Prop :=
  ∀ (s : State) (m : Octets) (rest : List Octets), s.Running → s.panel.inFifo = m :: rest → m.b0 = 6 →
    s.panel.outFifo.length ≤ 8 →
    ∃ t, exec .allOff s = .next t ∧
      (∀ u : Fin 8, t.slot u = { s.slot u with voice := t.voice u } ∧
        (s.voice u = none → t.voice u = none) ∧
        (∀ v, s.voice u = some v → v.releasing = true → t.voice u = some v) ∧
        (∀ v, s.voice u = some v → v.releasing = false → t.voice u = some { v with state := .releasingNormal } ∧
          (∀ y ∈ t.line.queue, y.record.isNoteStart u = false) ∧
          (s.line.state = .active → (s.slot u).announced = true ∨ s.line.announces u = true →
            ∃ y ∈ t.line.queue, y.record = .noteEnd u))) ∧
      (∀ r : Fin 3, (t.rank r).stage = .idle ∧ (t.rank r).claim = none ∧ (t.rank r).slot = none ∧
        (t.rank r).position = 0 ∧ (t.rank r).refused = []) ∧
      (∀ y ∈ t.line.queue, ∀ r : Fin 3, y.record.isClaim r = false) ∧
      (s.line.state ≠ .active → t.line.queue = s.line.queue.filter fun y =>
        !(allRanks.any fun r => y.record.isClaim r) &&
          !(allEight.any fun u => y.record.isNoteStart u && (s.voice u).any Voice.active)) ∧
      t.harmony = { s.harmony with ranks := t.harmony.ranks } ∧
      t.line = { s.line with queue := t.line.queue, heldDropped := t.line.heldDropped } ∧
      t = { s with slots := t.slots, harmony := t.harmony, line := t.line, panel := { s.panel with inFifo := rest } }

/-- The reports of the panel. STATUS (R187, spec 11.4): the four records are placed together in their order with the contents as they
stand, every event in the set is marked reported, and nothing else changes. SECTION and SECTION_ENTRY_PLACED (R184, R188): a SECTION
advances the report number and starts the report afresh; a running report places the first entry after the last key placed, or a
SECTION_END with its count and stops, where the out FIFO has a free place and no message waits for one; otherwise it places nothing. -/
def Obligations.ReportsPlaceRecords : Prop :=
  (∀ (s : State) (m : Octets) (rest : List Octets), s.Running → s.panel.inFifo = m :: rest → m.b0 = 7 →
    s.panel.outFifo.length ≤ 4 → s.resolver.leadNote ≤ 127 → (∀ n ∈ s.pitch.root, n ≤ 127) →
    s.banks.a.code.2 ≤ 15 → s.banks.b.code.2 ≤ 15 →
    ∃ t c2 c3 c4 c5 c6 set, exec .status s = .next t ∧
      t.panel.outFifo = s.panel.outFifo ++
        [.statusState c2 c3 c4 c5 c6, .statusEvents set s.panel.gestureSet,
          .statusCountA s.sensor.missedFrames s.resolver.unresolvedFrames s.line.badFrames,
          .statusCountB s.line.recordsDropped s.line.heldDropped s.audio.clipCount] ∧
      (c2.toNat % 8 = s.power.station.val ∧ c2.toNat / 8 % 4 = s.loader.image.code ∧ c2.toNat / 32 = s.line.state.code) ∧
      (c3.toNat % 4 = s.banks.a.code.1 ∧ c3.toNat / 4 % 16 = s.banks.a.code.2 ∧
        c3.getLsbD 7 = decide (s.banks.selector = .bankB)) ∧
      (c4.toNat % 4 = s.banks.b.code.1 ∧ c4.toNat / 4 % 16 = s.banks.b.code.2) ∧
      c5.toNat = (if s.image?.isSome then 128 + s.resolver.leadNote else 0) ∧
      (c6.toNat = match s.pitch.root with
        | some n => 128 + n
        | none => 0) ∧
      (∀ e : Event, set.getLsbD e.bit = decide (s.panel.events.mark e ≠ .absent)) ∧
      (∀ e : Event, t.panel.events.mark e = if s.panel.events.mark e = .absent then .absent else .reported) ∧
      t = { s with panel := { s.panel with inFifo := rest, outFifo := t.panel.outFifo, events := t.panel.events } }) ∧
  (∀ (s : State) (m : Octets) (rest : List Octets), s.Running → s.panel.inFifo = m :: rest → m.b0 = 8 →
    s.panel.outFifo.length ≤ 8 →
    exec .sectionRequest s = .next
      { s with panel := { s.panel with inFifo := rest, reportNumber := s.panel.reportNumber + 1,
                                       report := some { lastKey := none, count := 0 } } }) ∧
  (∀ (s : State) (rep : Report), s.Running → s.panel.report = some rep → s.panel.outFifo.length < 8 →
    (∀ m rest, s.panel.inFifo = m :: rest → (readMessage m).room + s.panel.outFifo.length ≤ 8) →
    (∀ before after e, s.map.entries = before ++ e :: after → (∀ x ∈ before, ∃ k, rep.lastKey = some k ∧ x.key ≤ k) →
      (∀ k, rep.lastKey = some k → k < e.key) →
      exec .sectionEntryPlaced s = .next
        { s with panel := { s.panel with outFifo := s.panel.outFifo ++ [.sectionEntry s.panel.reportNumber e]
                                         report := some { lastKey := some e.key, count := rep.count + 1 } } }) ∧
    ((∀ x ∈ s.map.entries, ∃ k, rep.lastKey = some k ∧ x.key ≤ k) →
      exec .sectionEntryPlaced s = .next
        { s with panel := { s.panel with outFifo := s.panel.outFifo ++ [.sectionEnd s.panel.reportNumber rep.count]
                                         report := none } })) ∧
  (∀ s : State, s.panel.report = none ∨ 8 ≤ s.panel.outFifo.length ∨
      (∃ m rest, s.panel.inFifo = m :: rest ∧ 8 < (readMessage m).room + s.panel.outFifo.length) →
    exec .sectionEntryPlaced s = .next s)

/-- R190 with the set's encoding (spec 11.4): an ACK removes each listed event that stands marked reported and leaves every other as it
was; removing GESTURE_REPORT empties its detector set; no record is placed; an empty set does nothing; and an ACK and an occurrence of
one event leave it standing unmarked in either order, for the next STATUS to report. -/
def Obligations.AckRemovesReported : Prop :=
  (∀ (s : State) (m : Octets) (rest : List Octets), s.Running → s.panel.inFifo = m :: rest → m.b0 = 9 →
    s.panel.outFifo.length ≤ 8 →
    let listed := fun e : Event => if e.bit < 8 then m.b2.getLsbD e.bit else m.b1.getLsbD (e.bit - 8)
    ∃ t, exec .ack s = .next t ∧
      (∀ e : Event, t.panel.events.mark e =
        if listed e = true ∧ s.panel.events.mark e = .reported then .absent else s.panel.events.mark e) ∧
      (listed .gestureReport = true → s.panel.events.gestureReport = .reported → t.panel.gestureSet = 0) ∧
      (t.panel.events.gestureReport ≠ .absent → t.panel.gestureSet = s.panel.gestureSet) ∧
      ((∀ e, listed e = false) → t.panel.events = s.panel.events) ∧
      t = { s with panel := { s.panel with inFifo := rest, events := t.panel.events, gestureSet := t.panel.gestureSet } }) ∧
  (∀ (es : EventSet) (listed : BitVec 13) (e : Event),
    (((es.occur e).ack listed).mark e = .unmarked ∧ ((es.occur e).ack listed).bits.getLsbD e.bit = true) ∧
    (((es.ack listed).occur e).mark e = .unmarked ∧ ((es.ack listed).occur e).bits.getLsbD e.bit = true))

/-- RELOAD (R16, R36, R49, R66, R74, R82, R119, R134, R141, R174, R181, R192): in any image state a new load begins, every block takes
its RELOAD values, and what is kept is kept. -/
def Obligations.ReloadRestartsBlocks : Prop :=
  ∀ (s : State) (m : Octets) (rest : List Octets), s.Running → s.panel.inFifo = m :: rest → m.b0 = 10 →
    s.panel.outFifo.length ≤ 8 →
    ∃ t, exec .reload s = .next t ∧
      t.loader = { s.loader with image := .loading, reading := some .imageLoad } ∧
      t.power = s.power ∧ t.sensor = s.sensor ∧ t.map = s.map ∧
      (t.resolver.previous = none ∧ t.resolver.stability = 0 ∧ t.resolver.taken = 60 ∧ t.resolver.octaveShift = 0 ∧
        t.resolver.transpose = 0 ∧ t.resolver.leadNote = 60 ∧ t.resolver.unresolvedFrames = s.resolver.unresolvedFrames) ∧
      (t.breath.baseline = none ∧ t.breath.captureCount = 0 ∧ t.breath.captureSum = 0 ∧ t.breath.articulation = .silent ∧
        t.breath.onsetCounter = 0 ∧ t.breath.onsetPeak = 0 ∧ t.breath.net = 0 ∧ t.breath.previousNet = 0 ∧
        t.breath.rise = 0 ∧ t.breath.level = 0 ∧ t.breath.levelClass = 0 ∧ t.breath.bend = 0) ∧
      (∀ d : Fin 4, t.detectors.get d = { hits := 0, armed := true }) ∧
      (∀ u : Fin 8, (t.slot u).announced = false ∧ t.voice u = none ∧ (t.slot u).gainCurrent = 0 ∧
        (t.slot u).gainTarget = 0) ∧
      t.banks = { a := .empty, b := .empty, selector := .bankA } ∧
      t.pitch = { root := none, previousRoot := none, settleCount := 0, tuning := 0 } ∧
      (∀ r : Fin 3, (t.rank r).stage = .idle ∧ (t.rank r).claim = none ∧ (t.rank r).slot = none ∧
        (t.rank r).position = 0 ∧ (t.rank r).refused = []) ∧
      (t.harmony.counter = s.harmony.counter ∧ t.harmony.master = true ∧ t.harmony.liveRanks = 7 ∧ t.harmony.key = 0 ∧
        t.harmony.scale = 4095) ∧
      t.line = { s.line with queue := [], rosterTimer := none } ∧
      t.audio.clipCount = s.audio.clipCount ∧ t.masterGain = 0 ∧ t.justTable = [] ∧ t.programCount = 0 ∧
      t.panel = { s.panel with inFifo := rest, waitTranspose := none, waitTuning := none, waitKey := none, waitRanks := none,
                               transposeDue := false, tuningDue := false, keyDue := false, ranksDue := false } ∧
      t.attn = s.attn

/-! ### Pitch to increment, and the frames on the line -/

/-- R91 and R92: the octave, cent and tenth of a cent of a pitch, the interpolated entry, its floor shift, and the increment that an
allocation and a pitch evaluation write with it; the table rises (R90), so a higher pitch never has the lower increment. -/
def Obligations.IncrementInterpolates : Prop :=
  (∀ p : Nat, p ≤ 127999 →
    let o := p / 12000
    let r := p % 12000
    let c := r / 10
    let frac := r % 10
    let e := incrementEntry c + (incrementEntry (c + 1) - incrementEntry c) * frac / 10
    o ≤ 10 ∧ c ≤ 1199 ∧ frac ≤ 9 ∧ incrementEntry c < incrementEntry (c + 1) ∧
      (frac = 0 → e = incrementEntry c) ∧ incrementEntry 0 ≤ e ∧ e ≤ incrementEntry 1200 ∧ e < 2 ^ 31 ∧
      incrementOf p = e / 2 ^ (10 - o) ∧ incrementOf p ≤ incrementEntry 1200) ∧
  (∀ p q : Nat, p ≤ q → q ≤ 127999 → incrementOf p ≤ incrementOf q) ∧
  (∀ (s : State) (v : Voice), (s.composed v).increment = incrementOf (s.composed v).pitch ∧
    (s.tune v).increment = incrementOf (s.tune v).pitch ∧ (s.composed v).pitch ≤ 127999 ∧ (s.tune v).pitch ≤ 127999)

/-- What a station sends, a station reads (R142, R143, R194, R195, R196, spec 11.2): the bytes of every frame with its fields in range
are a good frame with just those contents; its bits after the start bit are read back as just those bytes, byte for byte, with their
separators; and no nine recessive bits stand in a row in it. -/
def Obligations.SentFrameIsReadBack : Prop :=
  ∀ f : LineFrame,
    (match f.payload with
      | .noteStart _ n _ c => n ≤ 127 ∧ c ≤ 3
      | .noteEnd _ => True
      | .held _ _ n _ => n ≤ 127
      | .claim _ n => n ≤ 127
      | .roster es => es.length ≤ 8 ∧ ∀ e ∈ es, e.note ≤ 127 ∧ e.levelClass ≤ 3) →
    verdict f.bytes = .good f ∧
    f.bits = false :: f.bits.tail ∧ readBits f.bits.tail = .complete f.bytes ∧
    f.bits.length = 9 * f.bytes.length ∧
    ∀ before run after, f.bits = before ++ run ++ after → run.length = 9 → false ∈ run

/-! ### What every step keeps -/

/-- The laws hold right after reset. -/
def Obligations.LawsHoldAtReset : Prop :=
  State.reset.SectionMapOk ∧ State.reset.LineOk ∧ State.reset.BanksOk ∧ State.reset.HarmonyOk ∧ State.reset.VoicesOk ∧
    State.reset.PitchOk ∧ State.reset.PortsOk

/-- Every step keeps the Section Map's law (R120, R122, R123, R124), and under it the map holds at most 56 entries. -/
def Obligations.StepKeepsSectionMap : Prop :=
  (∀ s t : State, s.SectionMapOk → step s = .next t → t.SectionMapOk) ∧
  (∀ s : State, s.SectionMapOk → s.map.entries.length ≤ 56)

/-- Every step keeps the Section Line's law (R136, R138, R145 to R149, R152, R154, R156): the queue in class order, within its limits,
empty outside ACTIVE; ACTIVE only below an error counter of 96. -/
def Obligations.StepKeepsSectionLine : Prop :=
  ∀ s t : State, s.LineOk → step s = .next t → t.LineOk

/-- Every step keeps the law of the Harmony Ranks (R95, R99, R109, R117): claims present exactly in the stages that hold one, distinct
numbers outstanding, refused lists of at most three notes, none twice, and empty whenever the articulation is not SOUNDING. -/
def Obligations.StepKeepsHarmony : Prop :=
  ∀ s t : State, s.HarmonyOk → step s = .next t → t.HarmonyOk

/-- Every step keeps the law of the Program Banks (R67, R71): no bank is LOADING or EMPTY while a voice references it, and no bank is
PENDING unless one does. -/
def Obligations.StepKeepsBanks : Prop :=
  ∀ s t : State, s.BanksOk → step s = .next t → t.BanksOk

/-- Every step keeps the law of the Voice Table with the ranks (R51, R95, R112): at most one LEAD slot and one slot of each rank is
PROVISIONAL or SOUNDING, each rank naming its own, and none of them plays a note that the map holds as a LEAD entry. Under the law at
most four slots are PROVISIONAL or SOUNDING, so that an allocation always finds a slot (R52). -/
def Obligations.StepKeepsVoices : Prop :=
  (∀ s t : State, s.VoicesOk → step s = .next t → t.VoicesOk) ∧
  (∀ s : State, s.VoicesOk →
    (allEight.filter fun u => (s.voice u).any Voice.active).length ≤ 4 ∧ s.allocationTag.isSome = true)

/-- Every step keeps every voice's pitch fields within their ranges (R53, R77, R86, R89, R92). -/
def Obligations.StepKeepsPitch : Prop :=
  ∀ s t : State, s.PitchOk → step s = .next t → t.PitchOk

/-- Every step keeps the counters, the FIFOs, the samples and the live settings within their ranges (R171, R172, R183 to R185,
R192). -/
def Obligations.StepKeepsPorts : Prop :=
  ∀ s t : State, s.PortsOk → step s = .next t → t.PortsOk
end

