-- ==== Sys2Proof/Laws/State.lean ====
section
/-!
SUPPORT. One lemma per field per update of the state: what each named update leaves as it was. All are tagged simp, so that no
proof has to unfold a record update.
-/

namespace Sys2Proof.Machine

variable (s : State)


/-! ### raise -/

@[simp] theorem raise_pending (e : Event) : (raise e s).pending = s.pending := rfl
@[simp] theorem raise_power (e : Event) : (raise e s).power = s.power := rfl
@[simp] theorem raise_loader (e : Event) : (raise e s).loader = s.loader := rfl
@[simp] theorem raise_sensor (e : Event) : (raise e s).sensor = s.sensor := rfl
@[simp] theorem raise_resolver (e : Event) : (raise e s).resolver = s.resolver := rfl
@[simp] theorem raise_breath (e : Event) : (raise e s).breath = s.breath := rfl
@[simp] theorem raise_detectors (e : Event) : (raise e s).detectors = s.detectors := rfl
@[simp] theorem raise_slots (e : Event) : (raise e s).slots = s.slots := rfl
@[simp] theorem raise_banks (e : Event) : (raise e s).banks = s.banks := rfl
@[simp] theorem raise_pitch (e : Event) : (raise e s).pitch = s.pitch := rfl
@[simp] theorem raise_harmony (e : Event) : (raise e s).harmony = s.harmony := rfl
@[simp] theorem raise_map (e : Event) : (raise e s).map = s.map := rfl
@[simp] theorem raise_line (e : Event) : (raise e s).line = s.line := rfl
@[simp] theorem raise_audio (e : Event) : (raise e s).audio = s.audio := rfl

/-! ### raiseGesture -/

@[simp] theorem raiseGesture_pending (d : Fin 4) : (raiseGesture d s).pending = s.pending := rfl
@[simp] theorem raiseGesture_power (d : Fin 4) : (raiseGesture d s).power = s.power := rfl
@[simp] theorem raiseGesture_loader (d : Fin 4) : (raiseGesture d s).loader = s.loader := rfl
@[simp] theorem raiseGesture_sensor (d : Fin 4) : (raiseGesture d s).sensor = s.sensor := rfl
@[simp] theorem raiseGesture_resolver (d : Fin 4) : (raiseGesture d s).resolver = s.resolver := rfl
@[simp] theorem raiseGesture_breath (d : Fin 4) : (raiseGesture d s).breath = s.breath := rfl
@[simp] theorem raiseGesture_detectors (d : Fin 4) : (raiseGesture d s).detectors = s.detectors := rfl
@[simp] theorem raiseGesture_slots (d : Fin 4) : (raiseGesture d s).slots = s.slots := rfl
@[simp] theorem raiseGesture_banks (d : Fin 4) : (raiseGesture d s).banks = s.banks := rfl
@[simp] theorem raiseGesture_pitch (d : Fin 4) : (raiseGesture d s).pitch = s.pitch := rfl
@[simp] theorem raiseGesture_harmony (d : Fin 4) : (raiseGesture d s).harmony = s.harmony := rfl
@[simp] theorem raiseGesture_map (d : Fin 4) : (raiseGesture d s).map = s.map := rfl
@[simp] theorem raiseGesture_line (d : Fin 4) : (raiseGesture d s).line = s.line := rfl
@[simp] theorem raiseGesture_audio (d : Fin 4) : (raiseGesture d s).audio = s.audio := rfl

/-! ### countBadFrame -/

@[simp] theorem countBadFrame_pending : (countBadFrame s).pending = s.pending := rfl
@[simp] theorem countBadFrame_power : (countBadFrame s).power = s.power := rfl
@[simp] theorem countBadFrame_loader : (countBadFrame s).loader = s.loader := rfl
@[simp] theorem countBadFrame_sensor : (countBadFrame s).sensor = s.sensor := rfl
@[simp] theorem countBadFrame_resolver : (countBadFrame s).resolver = s.resolver := rfl
@[simp] theorem countBadFrame_breath : (countBadFrame s).breath = s.breath := rfl
@[simp] theorem countBadFrame_detectors : (countBadFrame s).detectors = s.detectors := rfl
@[simp] theorem countBadFrame_slots : (countBadFrame s).slots = s.slots := rfl
@[simp] theorem countBadFrame_banks : (countBadFrame s).banks = s.banks := rfl
@[simp] theorem countBadFrame_pitch : (countBadFrame s).pitch = s.pitch := rfl
@[simp] theorem countBadFrame_harmony : (countBadFrame s).harmony = s.harmony := rfl
@[simp] theorem countBadFrame_map : (countBadFrame s).map = s.map := rfl
@[simp] theorem countBadFrame_audio : (countBadFrame s).audio = s.audio := rfl
@[simp] theorem countBadFrame_panel : (countBadFrame s).panel = s.panel := rfl

/-! ### frameOver -/

@[simp] theorem frameOver_pending : (frameOver s).pending = s.pending := rfl
@[simp] theorem frameOver_power : (frameOver s).power = s.power := rfl
@[simp] theorem frameOver_loader : (frameOver s).loader = s.loader := rfl
@[simp] theorem frameOver_sensor : (frameOver s).sensor = s.sensor := rfl
@[simp] theorem frameOver_resolver : (frameOver s).resolver = s.resolver := rfl
@[simp] theorem frameOver_breath : (frameOver s).breath = s.breath := rfl
@[simp] theorem frameOver_detectors : (frameOver s).detectors = s.detectors := rfl
@[simp] theorem frameOver_slots : (frameOver s).slots = s.slots := rfl
@[simp] theorem frameOver_banks : (frameOver s).banks = s.banks := rfl
@[simp] theorem frameOver_pitch : (frameOver s).pitch = s.pitch := rfl
@[simp] theorem frameOver_harmony : (frameOver s).harmony = s.harmony := rfl
@[simp] theorem frameOver_map : (frameOver s).map = s.map := rfl
@[simp] theorem frameOver_audio : (frameOver s).audio = s.audio := rfl
@[simp] theorem frameOver_panel : (frameOver s).panel = s.panel := rfl

/-! ### dropHead -/

@[simp] theorem dropHead_pending : (dropHead s).pending = s.pending := rfl
@[simp] theorem dropHead_power : (dropHead s).power = s.power := rfl
@[simp] theorem dropHead_loader : (dropHead s).loader = s.loader := rfl
@[simp] theorem dropHead_sensor : (dropHead s).sensor = s.sensor := rfl
@[simp] theorem dropHead_resolver : (dropHead s).resolver = s.resolver := rfl
@[simp] theorem dropHead_breath : (dropHead s).breath = s.breath := rfl
@[simp] theorem dropHead_detectors : (dropHead s).detectors = s.detectors := rfl
@[simp] theorem dropHead_slots : (dropHead s).slots = s.slots := rfl
@[simp] theorem dropHead_banks : (dropHead s).banks = s.banks := rfl
@[simp] theorem dropHead_pitch : (dropHead s).pitch = s.pitch := rfl
@[simp] theorem dropHead_harmony : (dropHead s).harmony = s.harmony := rfl
@[simp] theorem dropHead_map : (dropHead s).map = s.map := rfl
@[simp] theorem dropHead_line : (dropHead s).line = s.line := rfl
@[simp] theorem dropHead_audio : (dropHead s).audio = s.audio := rfl

/-! ### place -/

@[simp] theorem place_pending (r : PanelRecord) : (place r s).pending = s.pending := rfl
@[simp] theorem place_power (r : PanelRecord) : (place r s).power = s.power := rfl
@[simp] theorem place_loader (r : PanelRecord) : (place r s).loader = s.loader := rfl
@[simp] theorem place_sensor (r : PanelRecord) : (place r s).sensor = s.sensor := rfl
@[simp] theorem place_resolver (r : PanelRecord) : (place r s).resolver = s.resolver := rfl
@[simp] theorem place_breath (r : PanelRecord) : (place r s).breath = s.breath := rfl
@[simp] theorem place_detectors (r : PanelRecord) : (place r s).detectors = s.detectors := rfl
@[simp] theorem place_slots (r : PanelRecord) : (place r s).slots = s.slots := rfl
@[simp] theorem place_banks (r : PanelRecord) : (place r s).banks = s.banks := rfl
@[simp] theorem place_pitch (r : PanelRecord) : (place r s).pitch = s.pitch := rfl
@[simp] theorem place_harmony (r : PanelRecord) : (place r s).harmony = s.harmony := rfl
@[simp] theorem place_map (r : PanelRecord) : (place r s).map = s.map := rfl
@[simp] theorem place_line (r : PanelRecord) : (place r s).line = s.line := rfl
@[simp] theorem place_audio (r : PanelRecord) : (place r s).audio = s.audio := rfl

/-! ### setBank -/

@[simp] theorem setBank_pending (b : BankId) (x : BankState) : (setBank b x s).pending = s.pending := by cases b <;> rfl
@[simp] theorem setBank_power (b : BankId) (x : BankState) : (setBank b x s).power = s.power := by cases b <;> rfl
@[simp] theorem setBank_loader (b : BankId) (x : BankState) : (setBank b x s).loader = s.loader := by cases b <;> rfl
@[simp] theorem setBank_sensor (b : BankId) (x : BankState) : (setBank b x s).sensor = s.sensor := by cases b <;> rfl
@[simp] theorem setBank_resolver (b : BankId) (x : BankState) : (setBank b x s).resolver = s.resolver := by cases b <;> rfl
@[simp] theorem setBank_breath (b : BankId) (x : BankState) : (setBank b x s).breath = s.breath := by cases b <;> rfl
@[simp] theorem setBank_detectors (b : BankId) (x : BankState) : (setBank b x s).detectors = s.detectors := by cases b <;> rfl
@[simp] theorem setBank_slots (b : BankId) (x : BankState) : (setBank b x s).slots = s.slots := by cases b <;> rfl
@[simp] theorem setBank_pitch (b : BankId) (x : BankState) : (setBank b x s).pitch = s.pitch := by cases b <;> rfl
@[simp] theorem setBank_harmony (b : BankId) (x : BankState) : (setBank b x s).harmony = s.harmony := by cases b <;> rfl
@[simp] theorem setBank_map (b : BankId) (x : BankState) : (setBank b x s).map = s.map := by cases b <;> rfl
@[simp] theorem setBank_line (b : BankId) (x : BankState) : (setBank b x s).line = s.line := by cases b <;> rfl
@[simp] theorem setBank_audio (b : BankId) (x : BankState) : (setBank b x s).audio = s.audio := by cases b <;> rfl
@[simp] theorem setBank_panel (b : BankId) (x : BankState) : (setBank b x s).panel = s.panel := by cases b <;> rfl

/-! ### setSlot -/

@[simp] theorem setSlot_pending (t : Fin 8) (x : Slot) : (setSlot t x s).pending = s.pending := rfl
@[simp] theorem setSlot_power (t : Fin 8) (x : Slot) : (setSlot t x s).power = s.power := rfl
@[simp] theorem setSlot_loader (t : Fin 8) (x : Slot) : (setSlot t x s).loader = s.loader := rfl
@[simp] theorem setSlot_sensor (t : Fin 8) (x : Slot) : (setSlot t x s).sensor = s.sensor := rfl
@[simp] theorem setSlot_resolver (t : Fin 8) (x : Slot) : (setSlot t x s).resolver = s.resolver := rfl
@[simp] theorem setSlot_breath (t : Fin 8) (x : Slot) : (setSlot t x s).breath = s.breath := rfl
@[simp] theorem setSlot_detectors (t : Fin 8) (x : Slot) : (setSlot t x s).detectors = s.detectors := rfl
@[simp] theorem setSlot_banks (t : Fin 8) (x : Slot) : (setSlot t x s).banks = s.banks := rfl
@[simp] theorem setSlot_pitch (t : Fin 8) (x : Slot) : (setSlot t x s).pitch = s.pitch := rfl
@[simp] theorem setSlot_harmony (t : Fin 8) (x : Slot) : (setSlot t x s).harmony = s.harmony := rfl
@[simp] theorem setSlot_map (t : Fin 8) (x : Slot) : (setSlot t x s).map = s.map := rfl
@[simp] theorem setSlot_line (t : Fin 8) (x : Slot) : (setSlot t x s).line = s.line := rfl
@[simp] theorem setSlot_audio (t : Fin 8) (x : Slot) : (setSlot t x s).audio = s.audio := rfl
@[simp] theorem setSlot_panel (t : Fin 8) (x : Slot) : (setSlot t x s).panel = s.panel := rfl

/-! ### setVoice -/

@[simp] theorem setVoice_pending (t : Fin 8) (v : Option Voice) : (setVoice t v s).pending = s.pending := rfl
@[simp] theorem setVoice_power (t : Fin 8) (v : Option Voice) : (setVoice t v s).power = s.power := rfl
@[simp] theorem setVoice_loader (t : Fin 8) (v : Option Voice) : (setVoice t v s).loader = s.loader := rfl
@[simp] theorem setVoice_sensor (t : Fin 8) (v : Option Voice) : (setVoice t v s).sensor = s.sensor := rfl
@[simp] theorem setVoice_resolver (t : Fin 8) (v : Option Voice) : (setVoice t v s).resolver = s.resolver := rfl
@[simp] theorem setVoice_breath (t : Fin 8) (v : Option Voice) : (setVoice t v s).breath = s.breath := rfl
@[simp] theorem setVoice_detectors (t : Fin 8) (v : Option Voice) : (setVoice t v s).detectors = s.detectors := rfl
@[simp] theorem setVoice_banks (t : Fin 8) (v : Option Voice) : (setVoice t v s).banks = s.banks := rfl
@[simp] theorem setVoice_pitch (t : Fin 8) (v : Option Voice) : (setVoice t v s).pitch = s.pitch := rfl
@[simp] theorem setVoice_harmony (t : Fin 8) (v : Option Voice) : (setVoice t v s).harmony = s.harmony := rfl
@[simp] theorem setVoice_map (t : Fin 8) (v : Option Voice) : (setVoice t v s).map = s.map := rfl
@[simp] theorem setVoice_line (t : Fin 8) (v : Option Voice) : (setVoice t v s).line = s.line := rfl
@[simp] theorem setVoice_audio (t : Fin 8) (v : Option Voice) : (setVoice t v s).audio = s.audio := rfl
@[simp] theorem setVoice_panel (t : Fin 8) (v : Option Voice) : (setVoice t v s).panel = s.panel := rfl

/-! ### setAnnounced -/

@[simp] theorem setAnnounced_pending (t : Fin 8) (b : Bool) : (setAnnounced t b s).pending = s.pending := rfl
@[simp] theorem setAnnounced_power (t : Fin 8) (b : Bool) : (setAnnounced t b s).power = s.power := rfl
@[simp] theorem setAnnounced_loader (t : Fin 8) (b : Bool) : (setAnnounced t b s).loader = s.loader := rfl
@[simp] theorem setAnnounced_sensor (t : Fin 8) (b : Bool) : (setAnnounced t b s).sensor = s.sensor := rfl
@[simp] theorem setAnnounced_resolver (t : Fin 8) (b : Bool) : (setAnnounced t b s).resolver = s.resolver := rfl
@[simp] theorem setAnnounced_breath (t : Fin 8) (b : Bool) : (setAnnounced t b s).breath = s.breath := rfl
@[simp] theorem setAnnounced_detectors (t : Fin 8) (b : Bool) : (setAnnounced t b s).detectors = s.detectors := rfl
@[simp] theorem setAnnounced_banks (t : Fin 8) (b : Bool) : (setAnnounced t b s).banks = s.banks := rfl
@[simp] theorem setAnnounced_pitch (t : Fin 8) (b : Bool) : (setAnnounced t b s).pitch = s.pitch := rfl
@[simp] theorem setAnnounced_harmony (t : Fin 8) (b : Bool) : (setAnnounced t b s).harmony = s.harmony := rfl
@[simp] theorem setAnnounced_map (t : Fin 8) (b : Bool) : (setAnnounced t b s).map = s.map := rfl
@[simp] theorem setAnnounced_line (t : Fin 8) (b : Bool) : (setAnnounced t b s).line = s.line := rfl
@[simp] theorem setAnnounced_audio (t : Fin 8) (b : Bool) : (setAnnounced t b s).audio = s.audio := rfl
@[simp] theorem setAnnounced_panel (t : Fin 8) (b : Bool) : (setAnnounced t b s).panel = s.panel := rfl

/-! ### mapSlots -/

@[simp] theorem mapSlots_pending (f : Slot → Slot) : (mapSlots f s).pending = s.pending := rfl
@[simp] theorem mapSlots_power (f : Slot → Slot) : (mapSlots f s).power = s.power := rfl
@[simp] theorem mapSlots_loader (f : Slot → Slot) : (mapSlots f s).loader = s.loader := rfl
@[simp] theorem mapSlots_sensor (f : Slot → Slot) : (mapSlots f s).sensor = s.sensor := rfl
@[simp] theorem mapSlots_resolver (f : Slot → Slot) : (mapSlots f s).resolver = s.resolver := rfl
@[simp] theorem mapSlots_breath (f : Slot → Slot) : (mapSlots f s).breath = s.breath := rfl
@[simp] theorem mapSlots_detectors (f : Slot → Slot) : (mapSlots f s).detectors = s.detectors := rfl
@[simp] theorem mapSlots_banks (f : Slot → Slot) : (mapSlots f s).banks = s.banks := rfl
@[simp] theorem mapSlots_pitch (f : Slot → Slot) : (mapSlots f s).pitch = s.pitch := rfl
@[simp] theorem mapSlots_harmony (f : Slot → Slot) : (mapSlots f s).harmony = s.harmony := rfl
@[simp] theorem mapSlots_map (f : Slot → Slot) : (mapSlots f s).map = s.map := rfl
@[simp] theorem mapSlots_line (f : Slot → Slot) : (mapSlots f s).line = s.line := rfl
@[simp] theorem mapSlots_audio (f : Slot → Slot) : (mapSlots f s).audio = s.audio := rfl
@[simp] theorem mapSlots_panel (f : Slot → Slot) : (mapSlots f s).panel = s.panel := rfl

/-! ### mapVoices -/

@[simp] theorem mapVoices_pending (f : Voice → Voice) : (mapVoices f s).pending = s.pending := rfl
@[simp] theorem mapVoices_power (f : Voice → Voice) : (mapVoices f s).power = s.power := rfl
@[simp] theorem mapVoices_loader (f : Voice → Voice) : (mapVoices f s).loader = s.loader := rfl
@[simp] theorem mapVoices_sensor (f : Voice → Voice) : (mapVoices f s).sensor = s.sensor := rfl
@[simp] theorem mapVoices_resolver (f : Voice → Voice) : (mapVoices f s).resolver = s.resolver := rfl
@[simp] theorem mapVoices_breath (f : Voice → Voice) : (mapVoices f s).breath = s.breath := rfl
@[simp] theorem mapVoices_detectors (f : Voice → Voice) : (mapVoices f s).detectors = s.detectors := rfl
@[simp] theorem mapVoices_banks (f : Voice → Voice) : (mapVoices f s).banks = s.banks := rfl
@[simp] theorem mapVoices_pitch (f : Voice → Voice) : (mapVoices f s).pitch = s.pitch := rfl
@[simp] theorem mapVoices_harmony (f : Voice → Voice) : (mapVoices f s).harmony = s.harmony := rfl
@[simp] theorem mapVoices_map (f : Voice → Voice) : (mapVoices f s).map = s.map := rfl
@[simp] theorem mapVoices_line (f : Voice → Voice) : (mapVoices f s).line = s.line := rfl
@[simp] theorem mapVoices_audio (f : Voice → Voice) : (mapVoices f s).audio = s.audio := rfl
@[simp] theorem mapVoices_panel (f : Voice → Voice) : (mapVoices f s).panel = s.panel := rfl

/-! ### setRank -/

@[simp] theorem setRank_pending (r : Fin 3) (k : Rank) : (setRank r k s).pending = s.pending := rfl
@[simp] theorem setRank_power (r : Fin 3) (k : Rank) : (setRank r k s).power = s.power := rfl
@[simp] theorem setRank_loader (r : Fin 3) (k : Rank) : (setRank r k s).loader = s.loader := rfl
@[simp] theorem setRank_sensor (r : Fin 3) (k : Rank) : (setRank r k s).sensor = s.sensor := rfl
@[simp] theorem setRank_resolver (r : Fin 3) (k : Rank) : (setRank r k s).resolver = s.resolver := rfl
@[simp] theorem setRank_breath (r : Fin 3) (k : Rank) : (setRank r k s).breath = s.breath := rfl
@[simp] theorem setRank_detectors (r : Fin 3) (k : Rank) : (setRank r k s).detectors = s.detectors := rfl
@[simp] theorem setRank_slots (r : Fin 3) (k : Rank) : (setRank r k s).slots = s.slots := rfl
@[simp] theorem setRank_banks (r : Fin 3) (k : Rank) : (setRank r k s).banks = s.banks := rfl
@[simp] theorem setRank_pitch (r : Fin 3) (k : Rank) : (setRank r k s).pitch = s.pitch := rfl
@[simp] theorem setRank_map (r : Fin 3) (k : Rank) : (setRank r k s).map = s.map := rfl
@[simp] theorem setRank_line (r : Fin 3) (k : Rank) : (setRank r k s).line = s.line := rfl
@[simp] theorem setRank_audio (r : Fin 3) (k : Rank) : (setRank r k s).audio = s.audio := rfl
@[simp] theorem setRank_panel (r : Fin 3) (k : Rank) : (setRank r k s).panel = s.panel := rfl

/-! ### setEntries -/

@[simp] theorem setEntries_pending (es : List MapEntry) : (setEntries es s).pending = s.pending := rfl
@[simp] theorem setEntries_power (es : List MapEntry) : (setEntries es s).power = s.power := rfl
@[simp] theorem setEntries_loader (es : List MapEntry) : (setEntries es s).loader = s.loader := rfl
@[simp] theorem setEntries_sensor (es : List MapEntry) : (setEntries es s).sensor = s.sensor := rfl
@[simp] theorem setEntries_resolver (es : List MapEntry) : (setEntries es s).resolver = s.resolver := rfl
@[simp] theorem setEntries_breath (es : List MapEntry) : (setEntries es s).breath = s.breath := rfl
@[simp] theorem setEntries_detectors (es : List MapEntry) : (setEntries es s).detectors = s.detectors := rfl
@[simp] theorem setEntries_slots (es : List MapEntry) : (setEntries es s).slots = s.slots := rfl
@[simp] theorem setEntries_banks (es : List MapEntry) : (setEntries es s).banks = s.banks := rfl
@[simp] theorem setEntries_pitch (es : List MapEntry) : (setEntries es s).pitch = s.pitch := rfl
@[simp] theorem setEntries_harmony (es : List MapEntry) : (setEntries es s).harmony = s.harmony := rfl
@[simp] theorem setEntries_line (es : List MapEntry) : (setEntries es s).line = s.line := rfl
@[simp] theorem setEntries_audio (es : List MapEntry) : (setEntries es s).audio = s.audio := rfl
@[simp] theorem setEntries_panel (es : List MapEntry) : (setEntries es s).panel = s.panel := rfl

/-! ### setStation -/

@[simp] theorem setStation_pending (st : Fin 8) (x : StationRecord) : (setStation st x s).pending = s.pending := rfl
@[simp] theorem setStation_power (st : Fin 8) (x : StationRecord) : (setStation st x s).power = s.power := rfl
@[simp] theorem setStation_loader (st : Fin 8) (x : StationRecord) : (setStation st x s).loader = s.loader := rfl
@[simp] theorem setStation_sensor (st : Fin 8) (x : StationRecord) : (setStation st x s).sensor = s.sensor := rfl
@[simp] theorem setStation_resolver (st : Fin 8) (x : StationRecord) : (setStation st x s).resolver = s.resolver := rfl
@[simp] theorem setStation_breath (st : Fin 8) (x : StationRecord) : (setStation st x s).breath = s.breath := rfl
@[simp] theorem setStation_detectors (st : Fin 8) (x : StationRecord) : (setStation st x s).detectors = s.detectors := rfl
@[simp] theorem setStation_slots (st : Fin 8) (x : StationRecord) : (setStation st x s).slots = s.slots := rfl
@[simp] theorem setStation_banks (st : Fin 8) (x : StationRecord) : (setStation st x s).banks = s.banks := rfl
@[simp] theorem setStation_pitch (st : Fin 8) (x : StationRecord) : (setStation st x s).pitch = s.pitch := rfl
@[simp] theorem setStation_harmony (st : Fin 8) (x : StationRecord) : (setStation st x s).harmony = s.harmony := rfl
@[simp] theorem setStation_line (st : Fin 8) (x : StationRecord) : (setStation st x s).line = s.line := rfl
@[simp] theorem setStation_audio (st : Fin 8) (x : StationRecord) : (setStation st x s).audio = s.audio := rfl
@[simp] theorem setStation_panel (st : Fin 8) (x : StationRecord) : (setStation st x s).panel = s.panel := rfl

/-! ### refreshStation -/

@[simp] theorem refreshStation_pending (st : Fin 8) : (refreshStation st s).pending = s.pending := rfl
@[simp] theorem refreshStation_power (st : Fin 8) : (refreshStation st s).power = s.power := rfl
@[simp] theorem refreshStation_loader (st : Fin 8) : (refreshStation st s).loader = s.loader := rfl
@[simp] theorem refreshStation_sensor (st : Fin 8) : (refreshStation st s).sensor = s.sensor := rfl
@[simp] theorem refreshStation_resolver (st : Fin 8) : (refreshStation st s).resolver = s.resolver := rfl
@[simp] theorem refreshStation_breath (st : Fin 8) : (refreshStation st s).breath = s.breath := rfl
@[simp] theorem refreshStation_detectors (st : Fin 8) : (refreshStation st s).detectors = s.detectors := rfl
@[simp] theorem refreshStation_slots (st : Fin 8) : (refreshStation st s).slots = s.slots := rfl
@[simp] theorem refreshStation_banks (st : Fin 8) : (refreshStation st s).banks = s.banks := rfl
@[simp] theorem refreshStation_pitch (st : Fin 8) : (refreshStation st s).pitch = s.pitch := rfl
@[simp] theorem refreshStation_harmony (st : Fin 8) : (refreshStation st s).harmony = s.harmony := rfl
@[simp] theorem refreshStation_line (st : Fin 8) : (refreshStation st s).line = s.line := rfl
@[simp] theorem refreshStation_audio (st : Fin 8) : (refreshStation st s).audio = s.audio := rfl
@[simp] theorem refreshStation_panel (st : Fin 8) : (refreshStation st s).panel = s.panel := rfl

/-! ### enqueue -/

@[simp] theorem admit_pending (r : Record) : (enqueue r s).pending = s.pending := rfl
@[simp] theorem admit_power (r : Record) : (enqueue r s).power = s.power := rfl
@[simp] theorem admit_loader (r : Record) : (enqueue r s).loader = s.loader := rfl
@[simp] theorem admit_sensor (r : Record) : (enqueue r s).sensor = s.sensor := rfl
@[simp] theorem admit_resolver (r : Record) : (enqueue r s).resolver = s.resolver := rfl
@[simp] theorem admit_breath (r : Record) : (enqueue r s).breath = s.breath := rfl
@[simp] theorem admit_detectors (r : Record) : (enqueue r s).detectors = s.detectors := rfl
@[simp] theorem admit_slots (r : Record) : (enqueue r s).slots = s.slots := rfl
@[simp] theorem admit_banks (r : Record) : (enqueue r s).banks = s.banks := rfl
@[simp] theorem admit_pitch (r : Record) : (enqueue r s).pitch = s.pitch := rfl
@[simp] theorem admit_harmony (r : Record) : (enqueue r s).harmony = s.harmony := rfl
@[simp] theorem admit_map (r : Record) : (enqueue r s).map = s.map := rfl
@[simp] theorem admit_audio (r : Record) : (enqueue r s).audio = s.audio := rfl
@[simp] theorem admit_panel (r : Record) : (enqueue r s).panel = s.panel := rfl

/-! ### removeRecords -/

@[simp] theorem removeRecords_pending (p : Record → Bool) : (removeRecords p s).pending = s.pending := rfl
@[simp] theorem removeRecords_power (p : Record → Bool) : (removeRecords p s).power = s.power := rfl
@[simp] theorem removeRecords_loader (p : Record → Bool) : (removeRecords p s).loader = s.loader := rfl
@[simp] theorem removeRecords_sensor (p : Record → Bool) : (removeRecords p s).sensor = s.sensor := rfl
@[simp] theorem removeRecords_resolver (p : Record → Bool) : (removeRecords p s).resolver = s.resolver := rfl
@[simp] theorem removeRecords_breath (p : Record → Bool) : (removeRecords p s).breath = s.breath := rfl
@[simp] theorem removeRecords_detectors (p : Record → Bool) : (removeRecords p s).detectors = s.detectors := rfl
@[simp] theorem removeRecords_slots (p : Record → Bool) : (removeRecords p s).slots = s.slots := rfl
@[simp] theorem removeRecords_banks (p : Record → Bool) : (removeRecords p s).banks = s.banks := rfl
@[simp] theorem removeRecords_pitch (p : Record → Bool) : (removeRecords p s).pitch = s.pitch := rfl
@[simp] theorem removeRecords_harmony (p : Record → Bool) : (removeRecords p s).harmony = s.harmony := rfl
@[simp] theorem removeRecords_map (p : Record → Bool) : (removeRecords p s).map = s.map := rfl
@[simp] theorem removeRecords_audio (p : Record → Bool) : (removeRecords p s).audio = s.audio := rfl
@[simp] theorem removeRecords_panel (p : Record → Bool) : (removeRecords p s).panel = s.panel := rfl

/-! ### selectBank -/

@[simp] theorem selectBank_pending (b : BankId) : (selectBank b s).pending = s.pending := rfl
@[simp] theorem selectBank_power (b : BankId) : (selectBank b s).power = s.power := rfl
@[simp] theorem selectBank_loader (b : BankId) : (selectBank b s).loader = s.loader := rfl
@[simp] theorem selectBank_sensor (b : BankId) : (selectBank b s).sensor = s.sensor := rfl
@[simp] theorem selectBank_resolver (b : BankId) : (selectBank b s).resolver = s.resolver := rfl
@[simp] theorem selectBank_breath (b : BankId) : (selectBank b s).breath = s.breath := rfl
@[simp] theorem selectBank_detectors (b : BankId) : (selectBank b s).detectors = s.detectors := rfl
@[simp] theorem selectBank_slots (b : BankId) : (selectBank b s).slots = s.slots := rfl
@[simp] theorem selectBank_pitch (b : BankId) : (selectBank b s).pitch = s.pitch := rfl
@[simp] theorem selectBank_harmony (b : BankId) : (selectBank b s).harmony = s.harmony := rfl
@[simp] theorem selectBank_map (b : BankId) : (selectBank b s).map = s.map := rfl
@[simp] theorem selectBank_line (b : BankId) : (selectBank b s).line = s.line := rfl
@[simp] theorem selectBank_audio (b : BankId) : (selectBank b s).audio = s.audio := rfl
@[simp] theorem selectBank_panel (b : BankId) : (selectBank b s).panel = s.panel := rfl

/-! ### tickAll -/

@[simp] theorem tickAll_pending : (tickAll s).pending = s.pending := rfl
@[simp] theorem tickAll_power : (tickAll s).power = s.power := rfl
@[simp] theorem tickAll_loader : (tickAll s).loader = s.loader := rfl
@[simp] theorem tickAll_resolver : (tickAll s).resolver = s.resolver := rfl
@[simp] theorem tickAll_breath : (tickAll s).breath = s.breath := rfl
@[simp] theorem tickAll_detectors : (tickAll s).detectors = s.detectors := rfl
@[simp] theorem tickAll_slots : (tickAll s).slots = s.slots := rfl
@[simp] theorem tickAll_banks : (tickAll s).banks = s.banks := rfl
@[simp] theorem tickAll_pitch : (tickAll s).pitch = s.pitch := rfl

/-! ### The fields inside a touched block -/

@[simp] theorem raise_inFifo (e : Event) : (raise e s).panel.inFifo = s.panel.inFifo := rfl
@[simp] theorem raise_outFifo (e : Event) : (raise e s).panel.outFifo = s.panel.outFifo := rfl
@[simp] theorem raise_report (e : Event) : (raise e s).panel.report = s.panel.report := rfl
@[simp] theorem raise_events (e : Event) : (raise e s).panel.events = s.panel.events.occur e := rfl
@[simp] theorem raise_gestureSet (e : Event) : (raise e s).panel.gestureSet = s.panel.gestureSet := rfl
@[simp] theorem raise_waitTranspose (e : Event) : (raise e s).panel.waitTranspose = s.panel.waitTranspose := rfl
@[simp] theorem raise_waitTuning (e : Event) : (raise e s).panel.waitTuning = s.panel.waitTuning := rfl
@[simp] theorem raise_waitKey (e : Event) : (raise e s).panel.waitKey = s.panel.waitKey := rfl
@[simp] theorem raise_waitRanks (e : Event) : (raise e s).panel.waitRanks = s.panel.waitRanks := rfl
@[simp] theorem setEntries_entries (es : List MapEntry) : (setEntries es s).map.entries = es := rfl
@[simp] theorem setEntries_stations (es : List MapEntry) : (setEntries es s).map.stations = s.map.stations := rfl
@[simp] theorem setStation_entries (st : Fin 8) (x : StationRecord) :
    (setStation st x s).map.entries = s.map.entries := rfl
@[simp] theorem setStation_stations (st : Fin 8) (x : StationRecord) :
    (setStation st x s).map.stations = s.map.stations.set st x := rfl
@[simp] theorem refreshStation_entries (st : Fin 8) : (refreshStation st s).map.entries = s.map.entries := rfl
@[simp] theorem setRank_master (r : Fin 3) (k : Rank) : (setRank r k s).harmony.master = s.harmony.master := rfl
@[simp] theorem setRank_counter (r : Fin 3) (k : Rank) : (setRank r k s).harmony.counter = s.harmony.counter := rfl
@[simp] theorem setRank_liveRanks (r : Fin 3) (k : Rank) :
    (setRank r k s).harmony.liveRanks = s.harmony.liveRanks := rfl
@[simp] theorem setRank_key (r : Fin 3) (k : Rank) : (setRank r k s).harmony.key = s.harmony.key := rfl
@[simp] theorem setRank_scale (r : Fin 3) (k : Rank) : (setRank r k s).harmony.scale = s.harmony.scale := rfl
@[simp] theorem setBank_selector (b : BankId) (x : BankState) :
    (setBank b x s).banks.selector = s.banks.selector := by cases b <;> rfl
@[simp] theorem admit_line (r : Record) : (enqueue r s).line = s.line.enqueue r := rfl
@[simp] theorem removeRecords_line (p : Record → Bool) : (removeRecords p s).line = s.line.remove p := rfl

end Sys2Proof.Machine
end

