-- ==== Sys2Proof/Laws/Tables.lean ====
section
/-!
SUPPORT. Read after write for the fixed tables, and for the slots, voices, ranks, banks and station records kept in them.
-/

namespace Sys2Proof

variable {α : Type}

@[simp] theorem Three.get_set_same (v : Three α) (i : Fin 3) (x : α) : (v.set i x).get i = x := by
  fin_cases i <;> rfl

theorem Three.get_set_ne (v : Three α) {i j : Fin 3} (h : j ≠ i) (x : α) : (v.set i x).get j = v.get j := by
  fin_cases i <;> fin_cases j <;> first | rfl | exact absurd rfl h

theorem Three.get_set (v : Three α) (i j : Fin 3) (x : α) :
    (v.set i x).get j = if j = i then x else v.get j := by
  by_cases h : j = i
  · subst h; simp
  · simp [h, Three.get_set_ne v h]

@[simp] theorem Three.get_map (f : α → α) (v : Three α) (i : Fin 3) : (v.map f).get i = f (v.get i) := by
  fin_cases i <;> rfl

@[simp] theorem Four.get_set_same (v : Four α) (i : Fin 4) (x : α) : (v.set i x).get i = x := by
  fin_cases i <;> rfl

theorem Four.get_set_ne (v : Four α) {i j : Fin 4} (h : j ≠ i) (x : α) : (v.set i x).get j = v.get j := by
  fin_cases i <;> fin_cases j <;> first | rfl | exact absurd rfl h

theorem Four.get_set (v : Four α) (i j : Fin 4) (x : α) : (v.set i x).get j = if j = i then x else v.get j := by
  by_cases h : j = i
  · subst h; simp
  · simp [h, Four.get_set_ne v h]

@[simp] theorem Eight.get_set_same (v : Eight α) (i : Fin 8) (x : α) : (v.set i x).get i = x := by
  fin_cases i <;> rfl

theorem Eight.get_set_ne (v : Eight α) {i j : Fin 8} (h : j ≠ i) (x : α) : (v.set i x).get j = v.get j := by
  fin_cases i <;> fin_cases j <;> first | rfl | exact absurd rfl h

theorem Eight.get_set (v : Eight α) (i j : Fin 8) (x : α) :
    (v.set i x).get j = if j = i then x else v.get j := by
  by_cases h : j = i
  · subst h; simp
  · simp [h, Eight.get_set_ne v h]

@[simp] theorem Eight.get_map {β : Type} (f : α → β) (v : Eight α) (i : Fin 8) :
    (v.map f).get i = f (v.get i) := by
  fin_cases i <;> rfl

namespace Machine

variable (s : State)

theorem slot_setSlot (t u : Fin 8) (x : Slot) : (setSlot t x s).slot u = if u = t then x else s.slot u :=
  Eight.get_set s.slots t u x

theorem voice_setSlot (t u : Fin 8) (x : Slot) :
    (setSlot t x s).voice u = if u = t then x.voice else s.voice u := by
  unfold State.voice; rw [slot_setSlot]; split <;> rfl

theorem slot_setVoice (t u : Fin 8) (v : Option Voice) :
    (setVoice t v s).slot u = if u = t then { s.slot t with voice := v } else s.slot u := slot_setSlot s t u _

theorem voice_setVoice (t u : Fin 8) (v : Option Voice) :
    (setVoice t v s).voice u = if u = t then v else s.voice u := by
  unfold setVoice; rw [voice_setSlot]

/-- The announced flag belongs to the tag: a change of voice leaves it (R53, R61). -/
@[simp] theorem announced_setVoice (t u : Fin 8) (v : Option Voice) :
    ((setVoice t v s).slot u).announced = (s.slot u).announced := by
  rw [slot_setVoice]; split
  · next h => subst h; rfl
  · rfl

theorem slot_setAnnounced (t u : Fin 8) (b : Bool) :
    (setAnnounced t b s).slot u = if u = t then { s.slot t with announced := b } else s.slot u :=
  slot_setSlot s t u _

@[simp] theorem voice_setAnnounced (t u : Fin 8) (b : Bool) : (setAnnounced t b s).voice u = s.voice u := by
  unfold State.voice; rw [slot_setAnnounced]; split
  · next h => subst h; rfl
  · rfl

/-- The gains of a tag's slot: a change of voice leaves them (R57). -/
@[simp] theorem gain_setVoice (t u : Fin 8) (v : Option Voice) : (setVoice t v s).gain u = s.gain u := by
  unfold State.gain; rw [slot_setVoice]; split
  · next h => subst h; rfl
  · rfl

@[simp] theorem slot_mapSlots (f : Slot → Slot) (u : Fin 8) : (mapSlots f s).slot u = f (s.slot u) := by
  unfold State.slot mapSlots; simp

/-- A map over the voices changes the voice of a slot and nothing else of it. -/
@[simp] theorem slot_mapVoices (f : Voice → Voice) (u : Fin 8) :
    (mapVoices f s).slot u = { s.slot u with voice := (s.voice u).map f } := slot_mapSlots s _ u

@[simp] theorem voice_mapVoices (f : Voice → Voice) (u : Fin 8) : (mapVoices f s).voice u = (s.voice u).map f := by
  unfold State.voice; rw [slot_mapVoices]; rfl

theorem rank_setRank (q r : Fin 3) (k : Rank) : (setRank r k s).rank q = if q = r then k else s.rank q :=
  Three.get_set s.harmony.ranks r q k

@[simp] theorem rank_setRank_same (r : Fin 3) (k : Rank) : (setRank r k s).rank r = k := by
  rw [rank_setRank]; simp

theorem bank_setBank (b c : BankId) (x : BankState) :
    (setBank b x s).bank c = if c = b then x else s.bank c := by
  cases b <;> cases c <;> rfl

/-- A state is what its slots, ranks and banks say: updates of other blocks leave these readings alone. -/
theorem voice_congr {s t : State} (h : t.slots = s.slots) (u : Fin 8) : t.voice u = s.voice u := by
  simp [State.voice, State.slot, h]

theorem slot_congr {s t : State} (h : t.slots = s.slots) (u : Fin 8) : t.slot u = s.slot u := by
  simp [State.slot, h]

theorem rank_congr {s t : State} (h : t.harmony = s.harmony) (r : Fin 3) : t.rank r = s.rank r := by
  simp [State.rank, h]

theorem bank_congr {s t : State} (h : t.banks = s.banks) (b : BankId) : t.bank b = s.bank b := by
  cases b <;> simp [State.bank, h]

end Machine

end Sys2Proof
end

