-- ==== Sys2Proof/Laws/Frames.lean ====
section
/-!
SUPPORT. What the work on voices, ranks and queued records leaves alone, said once: VoiceWork s t says that t is s but for slots,
the non-selector part of the banks, the read in flight, rank records, the claim counter, the transmit queue with its HELD dropped
counter, and the ROSTER timer. One lemma per operation.
-/

namespace Sys2Proof.Machine

/-- The fields that the work on voices, ranks and records never touches. -/
structure VoiceWork (s t : State) : Prop where
  pending : t.pending = s.pending
  power : t.power = s.power
  image : t.loader.image = s.loader.image
  startUpDone : t.loader.startUpDone = s.loader.startUpDone
  sensor : t.sensor = s.sensor
  resolver : t.resolver = s.resolver
  breath : t.breath = s.breath
  detectors : t.detectors = s.detectors
  selector : t.banks.selector = s.banks.selector
  pitch : t.pitch = s.pitch
  master : t.harmony.master = s.harmony.master
  liveRanks : t.harmony.liveRanks = s.harmony.liveRanks
  key : t.harmony.key = s.harmony.key
  scale : t.harmony.scale = s.harmony.scale
  map : t.map = s.map
  lineState : t.line.state = s.line.state
  joiningTimer : t.line.joiningTimer = s.line.joiningTimer
  errorCounter : t.line.errorCounter = s.line.errorCounter
  decayTimer : t.line.decayTimer = s.line.decayTimer
  underWay : t.line.underWay = s.line.underWay
  readingAbandoned : t.line.readingAbandoned = s.line.readingAbandoned
  badFrames : t.line.badFrames = s.line.badFrames
  recordsDropped : t.line.recordsDropped = s.line.recordsDropped
  audio : t.audio = s.audio
  panel : t.panel = s.panel

theorem VoiceWork.refl (s : State) : VoiceWork s s := by constructor <;> rfl

theorem VoiceWork.trans {s t u : State} (h : VoiceWork s t) (k : VoiceWork t u) : VoiceWork s u where
  pending := k.pending.trans h.pending
  power := k.power.trans h.power
  image := k.image.trans h.image
  startUpDone := k.startUpDone.trans h.startUpDone
  sensor := k.sensor.trans h.sensor
  resolver := k.resolver.trans h.resolver
  breath := k.breath.trans h.breath
  detectors := k.detectors.trans h.detectors
  selector := k.selector.trans h.selector
  pitch := k.pitch.trans h.pitch
  master := k.master.trans h.master
  liveRanks := k.liveRanks.trans h.liveRanks
  key := k.key.trans h.key
  scale := k.scale.trans h.scale
  map := k.map.trans h.map
  lineState := k.lineState.trans h.lineState
  joiningTimer := k.joiningTimer.trans h.joiningTimer
  errorCounter := k.errorCounter.trans h.errorCounter
  decayTimer := k.decayTimer.trans h.decayTimer
  underWay := k.underWay.trans h.underWay
  readingAbandoned := k.readingAbandoned.trans h.readingAbandoned
  badFrames := k.badFrames.trans h.badFrames
  recordsDropped := k.recordsDropped.trans h.recordsDropped
  audio := k.audio.trans h.audio
  panel := k.panel.trans h.panel

/-- A fold of steps that each do voice work is voice work. -/
theorem voiceWork_foldl {α : Type} (f : State → α → State) (hf : ∀ s a, VoiceWork s (f s a)) (l : List α) (s : State) :
    VoiceWork s (l.foldl f s) := by
  induction l generalizing s with
  | nil => exact .refl s
  | cons a l ih => exact (hf s a).trans (ih (f s a))

theorem voiceWork_setSlot (t : Fin 8) (x : Slot) (s : State) : VoiceWork s (setSlot t x s) := by constructor <;> rfl

theorem voiceWork_setVoice (t : Fin 8) (v : Option Voice) (s : State) : VoiceWork s (setVoice t v s) := by
  constructor <;> rfl

theorem voiceWork_mapSlots (f : Slot → Slot) (s : State) : VoiceWork s (mapSlots f s) := by constructor <;> rfl

theorem voiceWork_mapVoices (f : Voice → Voice) (s : State) : VoiceWork s (mapVoices f s) := by
  constructor <;> rfl

theorem voiceWork_setRank (r : Fin 3) (k : Rank) (s : State) : VoiceWork s (setRank r k s) := by constructor <;> rfl

theorem voiceWork_removeRecords (p : Record → Bool) (s : State) : VoiceWork s (removeRecords p s) := by
  constructor <;> rfl

/-! ### Admission -/

/-- What admission never touches in the line: everything but the queue, the ROSTER timer and the HELD dropped counter. -/
structure SameLine (l m : Line) : Prop where
  state : m.state = l.state
  joiningTimer : m.joiningTimer = l.joiningTimer
  errorCounter : m.errorCounter = l.errorCounter
  decayTimer : m.decayTimer = l.decayTimer
  underWay : m.underWay = l.underWay
  readingAbandoned : m.readingAbandoned = l.readingAbandoned
  badFrames : m.badFrames = l.badFrames
  recordsDropped : m.recordsDropped = l.recordsDropped

theorem sameLine_join (l : Line) (r : Record) : SameLine l (l.join r) := by
  unfold Line.join; split <;> constructor <;> rfl

theorem sameLine_replaceOrJoin (l : Line) (p : Record → Bool) (r : Record) : SameLine l (l.replaceOrJoin p r) := by
  unfold Line.replaceOrJoin; split
  · constructor <;> rfl
  · exact sameLine_join l r

theorem sameLine_admit (l : Line) (r : Record) : SameLine l (l.enqueue r) := by
  unfold Line.enqueue
  split
  · split
    · exact sameLine_replaceOrJoin ..
    · exact sameLine_replaceOrJoin ..
    · exact sameLine_replaceOrJoin ..
    · split <;> constructor <;> rfl
    · dsimp only
      split
      · constructor <;> rfl
      · have h := sameLine_join { l with rosterTimer := none } .roster
        exact ⟨h.state, h.joiningTimer, h.errorCounter, h.decayTimer, h.underWay, h.readingAbandoned, h.badFrames,
          h.recordsDropped⟩
  · constructor <;> rfl

/-- Nothing is admitted outside ACTIVE (R145). -/
theorem admit_of_not_active {l : Line} (h : l.state ≠ .active) (r : Record) : l.enqueue r = l := by
  unfold Line.enqueue; simp [h]

theorem voiceWork_admit (r : Record) (s : State) : VoiceWork s (enqueue r s) := by
  have h := sameLine_admit s.line r
  exact { pending := rfl, power := rfl, image := rfl, startUpDone := rfl, sensor := rfl, resolver := rfl, breath := rfl,
          detectors := rfl, selector := rfl, pitch := rfl, master := rfl, liveRanks := rfl, key := rfl, scale := rfl,
          map := rfl, lineState := h.state, joiningTimer := h.joiningTimer, errorCounter := h.errorCounter,
          decayTimer := h.decayTimer, underWay := h.underWay, readingAbandoned := h.readingAbandoned,
          badFrames := h.badFrames, recordsDropped := h.recordsDropped, audio := rfl, panel := rfl }

/-! ### Slots -/

theorem voiceWork_loadUnreferenced (b : BankId) (s : State) : VoiceWork s (loadUnreferenced b s) := by
  unfold loadUnreferenced
  split
  · split
    · exact .refl s
    · cases b <;> constructor <;> rfl
  · exact .refl s

theorem voiceWork_loadPending (s : State) : VoiceWork s (loadPending s) :=
  (voiceWork_loadUnreferenced .bankA s).trans (voiceWork_loadUnreferenced .bankB _)

theorem voiceWork_allocate (role : Role) (note : Nat) (b : BankId) (o : Option Nat) (s : State) :
    VoiceWork s (allocate role note b o s).2 := by
  unfold allocate
  split
  · exact (voiceWork_setSlot _ _ s).trans (voiceWork_loadPending _)
  · exact .refl s

theorem voiceWork_queueNoteStart (t : Fin 8) (s : State) : VoiceWork s (queueNoteStart t s) := by
  unfold queueNoteStart; split
  · exact voiceWork_admit _ s
  · exact .refl s

theorem voiceWork_placeNoteEnd (t : Fin 8) (s : State) : VoiceWork s (placeNoteEnd t s) := by
  have h := voiceWork_removeRecords (Record.isNoteStart t) s
  simp only [placeNoteEnd]
  split
  · exact h.trans (voiceWork_admit _ _)
  · exact h

theorem voiceWork_releaseSlot (mode : VoiceState) (t : Fin 8) (s : State) : VoiceWork s (releaseSlot mode t s) := by
  unfold releaseSlot
  split
  · split
    · exact (voiceWork_setVoice _ _ s).trans (voiceWork_placeNoteEnd _ _)
    · exact .refl s
  · exact .refl s

theorem voiceWork_releaseSlots (s : State) : VoiceWork s (releaseSlots s) :=
  voiceWork_foldl _ (fun s t => voiceWork_releaseSlot _ t s) _ s

/-! ### Ranks -/

theorem voiceWork_withdraw (r : Fin 3) (s : State) : VoiceWork s (withdraw r s) := by
  unfold withdraw
  split
  · exact (voiceWork_releaseSlot _ _ s).trans (voiceWork_setRank _ _ _)
  · exact voiceWork_setRank _ _ _

theorem voiceWork_exhaust (r : Fin 3) (s : State) : VoiceWork s (exhaust r s) :=
  (voiceWork_withdraw r s).trans (voiceWork_setRank _ _ _)

theorem voiceWork_retarget (t : Fin 8) (note : Nat) (s : State) : VoiceWork s (retarget t note s) := by
  unfold retarget; split
  · exact voiceWork_setVoice _ _ s
  · exact .refl s

theorem voiceWork_requestSlot (r : Fin 3) (note : Nat) (b : BankId) (keep : Bool) (s : State) :
    VoiceWork s (requestSlot r note b keep s).2 := by
  unfold requestSlot
  split
  · exact voiceWork_retarget _ _ s
  · exact voiceWork_allocate _ _ _ _ s

theorem voiceWork_setCounter (n : Byte) (s : State) :
    VoiceWork s { s with harmony := { s.harmony with counter := n } } := by constructor <;> rfl

theorem voiceWork_makeClaim (r : Fin 3) (pos note : Nat) (b : BankId) (keep : Bool) (s : State) :
    VoiceWork s (makeClaim r pos note b keep s) := by
  have h := (voiceWork_setCounter (s.claimNumber r + 1) s).trans
    (voiceWork_requestSlot r note b keep { s with harmony := { s.harmony with counter := s.claimNumber r + 1 } })
  simp only [makeClaim]
  split
  · exact (h.trans (voiceWork_setRank _ _ _)).trans (voiceWork_admit _ _)
  · exact h.trans (voiceWork_setRank _ _ _)

theorem voiceWork_plan (r : Fin 3) (start : Nat) (keep : Bool) (s : State) : VoiceWork s (plan r start keep s) := by
  unfold plan
  split
  · exact .refl s
  · dsimp only
    split
    · exact voiceWork_exhaust r s
    · exact voiceWork_makeClaim _ _ _ _ _ s

theorem voiceWork_giveUp (r : Fin 3) (s : State) : VoiceWork s (giveUp r s) :=
  ((voiceWork_withdraw r s).trans (voiceWork_removeRecords _ _)).trans (voiceWork_setRank _ _ _)

theorem voiceWork_yieldRank (r : Fin 3) (s : State) : VoiceWork s (yieldRank r s) := by
  unfold yieldRank
  split
  · exact .refl s
  · exact ((voiceWork_giveUp r s).trans (voiceWork_setRank _ _ _)).trans (voiceWork_plan _ _ _ _)

theorem voiceWork_enableChanged (r : Fin 3) (b a : Bool) (s : State) : VoiceWork s (enableChanged r b a s) := by
  unfold enableChanged
  split
  · exact voiceWork_giveUp r s
  · split
    · exact voiceWork_plan _ _ _ s
    · exact .refl s

theorem voiceWork_planAll (keep : Bool) (s : State) : VoiceWork s (planAll keep s) := by
  refine voiceWork_foldl _ (fun s r => ?_) _ s
  split
  · exact voiceWork_plan _ _ _ s
  · exact .refl s

theorem voiceWork_abandonClaim (r : Fin 3) (s : State) : VoiceWork s (abandonClaim r s) :=
  (voiceWork_removeRecords _ s).trans (voiceWork_setRank _ _ _)

theorem voiceWork_idleRank (r : Fin 3) (s : State) : VoiceWork s (idleRank r s) :=
  (voiceWork_removeRecords _ s).trans (voiceWork_setRank _ _ _)

theorem voiceWork_releaseAll (s : State) : VoiceWork s (releaseAll s) :=
  (voiceWork_releaseSlots s).trans (voiceWork_foldl _ (fun s r => voiceWork_idleRank r s) _ _)

theorem voiceWork_makeLocal (r : Fin 3) (s : State) : VoiceWork s (makeLocal r s) := by
  unfold makeLocal; split
  · exact voiceWork_setRank _ _ s
  · exact .refl s

theorem voiceWork_confirm (r : Fin 3) (s : State) : VoiceWork s (confirm r s) := by
  have h := voiceWork_setRank r { s.rank r with stage := .sounding, localDue := false } s
  simp only [confirm]
  split
  · split
    · exact (h.trans (voiceWork_setVoice _ _ _)).trans (voiceWork_queueNoteStart _ _)
    · exact h
  · exact h

theorem voiceWork_staleClaim (r : Fin 3) (s : State) : VoiceWork s (staleClaim r s) := by
  unfold staleClaim; split
  · exact (voiceWork_removeRecords _ s).trans (voiceWork_makeLocal _ _)
  · exact .refl s

theorem voiceWork_claimConfirm (r : Fin 3) (s : State) : VoiceWork s (claimConfirm r s) := by
  unfold claimConfirm; split
  · exact voiceWork_confirm r s
  · exact .refl s

theorem voiceWork_localResolution (r : Fin 3) (s : State) : VoiceWork s (localResolution r s) := by
  unfold localResolution
  split
  · split
    · split
      · exact voiceWork_yieldRank r s
      · exact voiceWork_confirm r s
    · exact voiceWork_setRank _ _ s
  · exact .refl s

/-! ### The lead -/

theorem voiceWork_legato (t : Fin 8) (s : State) : VoiceWork s (legato t s) := by
  unfold legato; split
  · exact (voiceWork_setVoice _ _ s).trans (voiceWork_queueNoteStart _ _)
  · exact .refl s

theorem voiceWork_replanAll (s : State) : VoiceWork s (replanAll s) :=
  (voiceWork_foldl _ (fun s r => voiceWork_abandonClaim r s) _ s).trans (voiceWork_planAll _ _)

theorem voiceWork_deliverLeadChange (s : State) : VoiceWork s (deliverLeadChange s) := by
  unfold deliverLeadChange
  split
  · split
    · exact (voiceWork_legato _ s).trans (voiceWork_replanAll _)
    · exact .refl s
  · exact .refl s

theorem voiceWork_leadStart (s : State) : VoiceWork s (leadStart s) := by
  unfold leadStart
  split
  · exact .refl s
  · have h := voiceWork_allocate .lead s.resolver.leadNote s.banks.selector (some s.breath.onsetPeak) s
    split
    · next t u hu =>
      rw [hu] at h
      exact (h.trans (voiceWork_queueNoteStart _ _)).trans (voiceWork_planAll _ _)
    · next u hu => rw [hu] at h; exact h

/-- Peers' frames: the yield check of an entry (R112, R113). -/
theorem voiceWork_checkEntry (e : MapEntry) (s : State) : VoiceWork s (checkEntry e s) := by
  refine voiceWork_foldl _ (fun s r => ?_) _ s
  split
  · exact voiceWork_yieldRank r s
  · exact .refl s

end Sys2Proof.Machine
end

