-- ==== Sys2Proof/Laws/Map.lean ====
section
/-!
SUPPORT. The Section Map's entries (R123 to R127): what placing, removing and replacing entries do to membership and to the order.
-/

namespace Sys2Proof.Machine

/-- The entries in strict station and tag order (R123). -/
abbrev InOrder (es : List MapEntry) : Prop := es.Pairwise fun a b => a.key < b.key

/-- The key tells the station and the tag. -/
theorem key_eq_iff (a b : MapEntry) : a.key = b.key ↔ a.station = b.station ∧ a.tag = b.tag := by
  unfold MapEntry.key
  have := a.tag.isLt; have := b.tag.isLt
  constructor
  · intro h
    exact ⟨Fin.ext (by omega), Fin.ext (by omega)⟩
  · rintro ⟨h, k⟩
    rw [h, k]

/-- In order, two entries of one key are one. -/
theorem InOrder.eq_of_key {es : List MapEntry} (h : InOrder es) {a b : MapEntry} (ha : a ∈ es) (hb : b ∈ es)
    (k : a.key = b.key) : a = b := by
  induction es with
  | nil => cases ha
  | cons x xs ih =>
    have hx : ∀ y ∈ xs, x.key < y.key := fun y hy => List.rel_of_pairwise_cons h hy
    rcases List.mem_cons.1 ha with rfl | ha' <;> rcases List.mem_cons.1 hb with rfl | hb'
    · rfl
    · have := hx b hb'; omega
    · have := hx a ha'; omega
    · exact ih h.of_cons ha' hb'

/-- Placing an entry replaces the one of its station and tag and leaves every other (R125). -/
theorem mem_insertEntry {e x : MapEntry} {es : List MapEntry} (h : InOrder es) :
    x ∈ insertEntry e es ↔ x = e ∨ (x ∈ es ∧ x.key ≠ e.key) := by
  induction es with
  | nil => simp [insertEntry]
  | cons y ys ih =>
    have hy : ∀ z ∈ ys, y.key < z.key := fun z hz => List.rel_of_pairwise_cons h hz
    unfold insertEntry
    split
    · next hlt =>
      constructor
      · intro hx
        rcases List.mem_cons.1 hx with rfl | hx
        · exact .inl rfl
        · refine .inr ⟨hx, ?_⟩
          rcases List.mem_cons.1 hx with rfl | hx
          · omega
          · have := hy x hx; omega
      · rintro (rfl | ⟨hx, -⟩)
        · exact List.mem_cons_self
        · exact List.mem_cons_of_mem _ hx
    · split
      · next hlt heq =>
        constructor
        · intro hx
          rcases List.mem_cons.1 hx with rfl | hx
          · exact .inl rfl
          · refine .inr ⟨List.mem_cons_of_mem _ hx, ?_⟩
            have := hy x hx; omega
        · rintro (rfl | ⟨hx, hk⟩)
          · exact List.mem_cons_self
          · rcases List.mem_cons.1 hx with rfl | hx
            · exact absurd heq.symm hk
            · exact List.mem_cons_of_mem _ hx
      · next hlt hne =>
        rw [List.mem_cons, ih h.of_cons, List.mem_cons]
        constructor
        · rintro (rfl | rfl | ⟨hx, hk⟩)
          · exact .inr ⟨.inl rfl, fun k => hne k.symm⟩
          · exact .inl rfl
          · exact .inr ⟨.inr hx, hk⟩
        · rintro (rfl | ⟨rfl | hx, hk⟩)
          · exact .inr (.inl rfl)
          · exact .inl rfl
          · exact .inr (.inr ⟨hx, hk⟩)

/-- Placing an entry keeps the order (R123). -/
theorem insertEntry_inOrder {e : MapEntry} {es : List MapEntry} (h : InOrder es) : InOrder (insertEntry e es) := by
  induction es with
  | nil => simp [insertEntry]
  | cons y ys ih =>
    have hy : ∀ z ∈ ys, y.key < z.key := fun z hz => List.rel_of_pairwise_cons h hz
    unfold insertEntry
    split
    · next hlt =>
      refine List.pairwise_cons.2 ⟨fun z hz => ?_, h⟩
      rcases List.mem_cons.1 hz with rfl | hz
      · exact hlt
      · have := hy z hz; omega
    · split
      · next heq =>
        refine List.pairwise_cons.2 ⟨fun z hz => ?_, h.of_cons⟩
        have := hy z hz; omega
      · refine List.pairwise_cons.2 ⟨fun z hz => ?_, ih h.of_cons⟩
        rcases (mem_insertEntry h.of_cons).1 hz with rfl | ⟨hz, -⟩
        · omega
        · exact hy z hz

/-- Removing entries keeps the order. -/
theorem removeEntry_inOrder {k : Nat} {es : List MapEntry} (h : InOrder es) : InOrder (removeEntry k es) :=
  List.Pairwise.sublist List.filter_sublist h

theorem removeStation_inOrder {st : Fin 8} {es : List MapEntry} (h : InOrder es) : InOrder (removeStation st es) :=
  List.Pairwise.sublist List.filter_sublist h

theorem mem_removeStation {st : Fin 8} {es : List MapEntry} {x : MapEntry} :
    x ∈ removeStation st es ↔ x ∈ es ∧ x.station ≠ st := by
  simp [removeStation]

theorem foldl_insert_inOrder (st : Fin 8) (listed : List RosterEntry) {es : List MapEntry} (h : InOrder es) :
    InOrder (listed.foldl (fun acc e => insertEntry (e.entry st) acc) es) := by
  induction listed generalizing es with
  | nil => exact h
  | cons x xs ih => exact ih (insertEntry_inOrder h)

/-- After entries of one station were placed in turn, the last listing of a tag stands, and an entry of no listed tag stays. -/
theorem mem_foldl_insert (st : Fin 8) (listed : List RosterEntry) {es : List MapEntry} (h : InOrder es) (x : MapEntry) :
    x ∈ listed.foldl (fun acc e => insertEntry (e.entry st) acc) es ↔
      (∃ before after y, listed = before ++ y :: after ∧ x = y.entry st ∧ ∀ z ∈ after, z.tag ≠ y.tag) ∨
        (x ∈ es ∧ ∀ y ∈ listed, x.key ≠ (y.entry st).key) := by
  induction listed generalizing es with
  | nil => simp
  | cons a as ih =>
    rw [List.foldl_cons, ih (insertEntry_inOrder h), mem_insertEntry h]
    constructor
    · rintro (⟨b, c, y, rfl, hx, hz⟩ | ⟨rfl | ⟨hx, hk⟩, hall⟩)
      · exact .inl ⟨a :: b, c, y, rfl, hx, hz⟩
      · refine .inl ⟨[], as, a, rfl, rfl, fun z hz ht => hall z hz ?_⟩
        exact (key_eq_iff _ _).2 ⟨rfl, ht.symm⟩
      · refine .inr ⟨hx, fun y hy => ?_⟩
        rcases List.mem_cons.1 hy with rfl | hy
        · exact hk
        · exact hall y hy
    · rintro (⟨b, c, y, hl, hx, hz⟩ | ⟨hx, hall⟩)
      · cases b with
        | nil =>
          simp only [List.nil_append, List.cons.injEq] at hl
          obtain ⟨rfl, rfl⟩ := hl
          refine .inr ⟨.inl hx, fun z hzm hk => hz z hzm ?_⟩
          subst hx
          exact ((key_eq_iff _ _).1 hk).2.symm
        | cons b0 bs =>
          simp only [List.cons_append, List.cons.injEq] at hl
          obtain ⟨rfl, rfl⟩ := hl
          exact .inl ⟨bs, c, y, rfl, hx, hz⟩
      · exact .inr ⟨.inr ⟨hx, hall a List.mem_cons_self⟩, fun y hy => hall y (List.mem_cons_of_mem _ hy)⟩

/-- A ROSTER leaves the entries in order. -/
theorem replaceStation_inOrder (st : Fin 8) (listed : List RosterEntry) {es : List MapEntry} (h : InOrder es) :
    InOrder (replaceStation st listed es) :=
  foldl_insert_inOrder st listed (removeStation_inOrder h)

/-- What the map holds after a ROSTER (R127). -/
theorem mem_replaceStation (st : Fin 8) (listed : List RosterEntry) {es : List MapEntry} (h : InOrder es) (x : MapEntry) :
    x ∈ replaceStation st listed es ↔
      (∃ before after y, listed = before ++ y :: after ∧ x = y.entry st ∧ ∀ z ∈ after, z.tag ≠ y.tag) ∨
        (x ∈ es ∧ x.station ≠ st) := by
  unfold replaceStation
  rw [mem_foldl_insert st listed (removeStation_inOrder h), mem_removeStation]
  constructor
  · rintro (hl | ⟨hx, -⟩)
    · exact .inl hl
    · exact .inr hx
  · rintro (hl | ⟨hx, hs⟩)
    · exact .inl hl
    · exact .inr ⟨⟨hx, hs⟩, fun y _ hk => hs ((key_eq_iff _ _).1 hk).1⟩

end Sys2Proof.Machine
end

