-- ==== Sys2Proof/Laws/Queue.lean ====
section
/-!
SUPPORT. The transmit queue (R145 to R149): what joining a class, evicting a HELD, replacing in place, removing and admitting do,
and that each keeps the queue's law.
-/

namespace Sys2Proof.Machine

/-! ### A record joining its class -/

theorem joinClass_perm (x : Queued) (q : List Queued) : (joinClass x q).Perm (x :: q) := by
  induction q with
  | nil => exact .refl _
  | cons y ys ih =>
    unfold joinClass
    split
    · exact ((ih.cons y).trans (.swap x y ys))
    · exact .refl _

theorem mem_joinClass {x y : Queued} {q : List Queued} : y ∈ joinClass x q ↔ y = x ∨ y ∈ q := by
  rw [(joinClass_perm x q).mem_iff]; simp

/-- In a queue in class order a record joins behind every record of its own and lower classes (R145). -/
theorem joinClass_split (x : Queued) (q : List Queued) (h : q.Pairwise fun a b => a.record.cls ≤ b.record.cls) :
    ∃ before after, q = before ++ after ∧ (∀ y ∈ before, y.record.cls ≤ x.record.cls) ∧
      (∀ y ∈ after, x.record.cls < y.record.cls) ∧ joinClass x q = before ++ x :: after := by
  induction q with
  | nil => exact ⟨[], [], rfl, by simp, by simp, rfl⟩
  | cons y ys ih =>
    by_cases hy : y.record.cls ≤ x.record.cls
    · obtain ⟨b, a, rfl, hb, ha, hj⟩ := ih h.of_cons
      refine ⟨y :: b, a, rfl, ?_, ha, ?_⟩
      · intro z hz
        rcases List.mem_cons.1 hz with rfl | hz
        · exact hy
        · exact hb z hz
      · simp [joinClass, hy, hj]
    · refine ⟨[], y :: ys, rfl, by simp, ?_, by simp [joinClass, hy]⟩
      intro z hz
      rcases List.mem_cons.1 hz with rfl | hz
      · omega
      · have := List.rel_of_pairwise_cons h hz
        omega

theorem joinClass_sorted (x : Queued) (q : List Queued) (h : q.Pairwise fun a b => a.record.cls ≤ b.record.cls) :
    (joinClass x q).Pairwise fun a b => a.record.cls ≤ b.record.cls := by
  obtain ⟨b, a, rfl, hb, ha, hj⟩ := joinClass_split x q h
  rw [hj]
  rw [List.pairwise_append] at h ⊢
  refine ⟨h.1, List.pairwise_cons.2 ⟨fun y hy => (ha y hy).le, h.2.1⟩, ?_⟩
  intro y hy z hz
  rcases List.mem_cons.1 hz with rfl | hz
  · exact hb y hy
  · exact h.2.2 y hy z hz

/-! ### Eviction -/

theorem evictHeld_sublist (q : List Queued) : (evictHeld q).Sublist q := by
  induction q with
  | nil => exact .slnil
  | cons y ys ih =>
    unfold evictHeld
    split
    · exact List.sublist_cons_self y ys
    · exact ih.cons_cons y

/-- The HELD evicted is the last one, the most recently admitted (R148). -/
theorem evictHeld_split {before after : List Queued} {x : Queued} (hx : x.record.isHeld = true)
    (ha : ∀ y ∈ after, y.record.isHeld = false) : evictHeld (before ++ x :: after) = before ++ after := by
  have hany : (after.any fun z => z.record.isHeld) = false := by simpa [List.any_eq_false] using ha
  induction before with
  | nil => simp [evictHeld, hx, hany]
  | cons y ys ih =>
    have : ((ys ++ x :: after).any fun z => z.record.isHeld) = true := by simp [hx]
    simp [evictHeld, ih, hx]

theorem exists_last_held {q : List Queued} (h : ∃ y ∈ q, y.record.isHeld = true) :
    ∃ before x after, q = before ++ x :: after ∧ x.record.isHeld = true ∧ ∀ y ∈ after, y.record.isHeld = false := by
  induction q with
  | nil => simp at h
  | cons y ys ih =>
    by_cases hys : ∃ z ∈ ys, z.record.isHeld = true
    · obtain ⟨b, x, a, rfl, hx, ha⟩ := ih hys
      exact ⟨y :: b, x, a, rfl, hx, ha⟩
    · obtain ⟨z, hz, hzh⟩ := h
      rcases List.mem_cons.1 hz with rfl | hz
      · exact ⟨[], z, ys, rfl, hzh, fun w hw => by
          by_contra hc; exact hys ⟨w, hw, by simpa using hc⟩⟩
      · exact absurd ⟨z, hz, hzh⟩ hys

/-! ### Replacement in place -/

/-- The first record that `p` accepts is replaced, in its place (R146, R147). -/
theorem replaceRecord_split {p : Record → Bool} (r : Record) {before after : List Queued} {y : Queued}
    (hy : p y.record = true) (hb : ∀ x ∈ before, p x.record = false) :
    replaceRecord p r (before ++ y :: after) = before ++ Queued.fresh r :: after := by
  induction before with
  | nil => simp [replaceRecord, hy]
  | cons x xs ih =>
    have hx := hb x (by simp)
    simp [replaceRecord, hx, ih fun z hz => hb z (by simp [hz])]

theorem exists_first {p : Record → Bool} {q : List Queued} (h : (q.any fun y => p y.record) = true) :
    ∃ before y after, q = before ++ y :: after ∧ p y.record = true ∧ ∀ x ∈ before, p x.record = false := by
  induction q with
  | nil => simp at h
  | cons y ys ih =>
    by_cases hy : p y.record = true
    · exact ⟨[], y, ys, rfl, hy, by simp⟩
    · have : (ys.any fun y => p y.record) = true := by simpa [hy] using h
      obtain ⟨b, z, a, rfl, hz, hb⟩ := ih this
      refine ⟨y :: b, z, a, rfl, hz, ?_⟩
      intro x hx
      rcases List.mem_cons.1 hx with rfl | hx
      · simpa using hy
      · exact hb x hx

/-! ### The queue's law -/

theorem QueueOk.nil : QueueOk [] := by simp [QueueOk, Config.queueLimit]

/-- Removal keeps the law. -/
theorem QueueOk.sublist {p q : List Queued} (h : QueueOk q) (s : p.Sublist q) : QueueOk p := by
  obtain ⟨h1, h2, h3, h4, h5, h6, h7⟩ := h
  exact ⟨h1.sublist s, s.length_le.trans h2, fun t => (s.countP_le).trans (h3 t), fun r => (s.countP_le).trans (h4 r),
    (s.countP_le).trans h5, fun y hy => h6 y (s.subset hy), (s.countP_le).trans h7⟩

theorem QueueOk.filter {q : List Queued} (h : QueueOk q) (p : Queued → Bool) : QueueOk (q.filter p) :=
  h.sublist List.filter_sublist

/-- Every record is a HELD, a NOTE record of one tag, the CLAIM of one rank, or a ROSTER. -/
theorem length_by_kind (q : List Queued) :
    q.length = (q.countP fun y => y.record.isHeld) + (∑ t : Fin 8, q.countP fun y => y.record.isNote t) +
      (∑ r : Fin 3, q.countP fun y => y.record.isClaim r) + q.countP fun y => y.record.isRoster := by
  induction q with
  | nil => simp
  | cons y ys ih =>
    simp only [List.countP_cons, List.length_cons, Finset.sum_add_distrib, ih]
    cases hr : y.record <;> simp [Record.isHeld, Record.isNote, Record.isClaim, Record.isRoster] <;> omega

/-- A full queue under the law holds a HELD (R148). -/
theorem QueueOk.held_of_full {q : List Queued} (h : QueueOk q) (hl : q.length = 16) :
    ∃ y ∈ q, y.record.isHeld = true := by
  obtain ⟨-, -, h3, h4, h5, -⟩ := h
  have hk := length_by_kind q
  have hn : (∑ t : Fin 8, q.countP fun y => y.record.isNote t) ≤ 8 := by
    have := Finset.sum_le_sum (s := Finset.univ) (fun t _ => h3 t)
    simpa using this
  have hc : (∑ r : Fin 3, q.countP fun y => y.record.isClaim r) ≤ 3 := by
    have := Finset.sum_le_sum (s := Finset.univ) (fun r _ => h4 r)
    simpa using this
  have : 0 < q.countP fun y => y.record.isHeld := by omega
  exact List.countP_pos_iff.1 this

/-- A fresh record joins without breaking the law when no record of its own kind and key is queued. -/
theorem QueueOk.join {q : List Queued} (h : QueueOk q) (r : Record) (hl : q.length < 16)
    (hn : ∀ t, r.isNote t = true → q.countP (fun y => y.record.isNote t) = 0)
    (hc : ∀ k, r.isClaim k = true → q.countP (fun y => y.record.isClaim k) = 0)
    (hr : r.isRoster = true → q.countP (fun y => y.record.isRoster) = 0) : QueueOk (joinClass (Queued.fresh r) q) := by
  obtain ⟨h1, h2, h3, h4, h5, h6, h7⟩ := h
  have hp := joinClass_perm (Queued.fresh r) q
  refine ⟨joinClass_sorted _ _ h1, ?_, ?_, ?_, ?_, ?_, ?_⟩
  · rw [hp.length_eq]; simp [Config.queueLimit]; omega
  · intro t
    rw [hp.countP_eq, List.countP_cons]
    by_cases ht : r.isNote t = true
    · simp [Queued.fresh, ht, hn t ht]
    · simpa [Queued.fresh, ht] using h3 t
  · intro k
    rw [hp.countP_eq, List.countP_cons]
    by_cases hk : r.isClaim k = true
    · simp [Queued.fresh, hk, hc k hk]
    · simpa [Queued.fresh, hk] using h4 k
  · rw [hp.countP_eq, List.countP_cons]
    by_cases hk : r.isRoster = true
    · simp [Queued.fresh, hk, hr hk]
    · simpa [Queued.fresh, hk] using h5
  · intro y hy
    rcases mem_joinClass.1 hy with rfl | hy
    · simp [Queued.fresh, Config.abandonLimit]
    · exact h6 y hy
  · rw [hp.countP_eq, List.countP_cons]; simpa [Queued.fresh] using h7

/-- A record that replaces one of its own class, tag and rank in place keeps the law. -/
theorem QueueOk.replace {before after : List Queued} {y : Queued} {r : Record} (h : QueueOk (before ++ y :: after))
    (hcls : y.record.cls = r.cls) (hn : ∀ t, r.isNote t = true → y.record.isNote t = true)
    (hc : ∀ k, r.isClaim k = true → y.record.isClaim k = true)
    (hr : r.isRoster = true → y.record.isRoster = true) : QueueOk (before ++ Queued.fresh r :: after) := by
  obtain ⟨h1, h2, h3, h4, h5, h6, h7⟩ := h
  refine ⟨?_, ?_, ?_, ?_, ?_, ?_, ?_⟩
  · rw [List.pairwise_append, List.pairwise_cons] at h1 ⊢
    refine ⟨h1.1, ⟨fun z hz => ?_, h1.2.1.2⟩, fun z hz w hw => ?_⟩
    · simpa [Queued.fresh, ← hcls] using h1.2.1.1 z hz
    · rcases List.mem_cons.1 hw with rfl | hw
      · simpa [Queued.fresh, ← hcls] using h1.2.2 z hz y (by simp)
      · exact h1.2.2 z hz w (by simp [hw])
  · simpa using h2
  · intro t
    have := h3 t
    rw [List.countP_append, List.countP_cons] at this ⊢
    by_cases ht : r.isNote t = true
    · simpa [Queued.fresh, ht, hn t ht] using this
    · simp only [Queued.fresh, ht]; simp; split at this <;> omega
  · intro k
    have := h4 k
    rw [List.countP_append, List.countP_cons] at this ⊢
    by_cases hk : r.isClaim k = true
    · simpa [Queued.fresh, hk, hc k hk] using this
    · simp only [Queued.fresh, hk]; simp; split at this <;> omega
  · rw [List.countP_append, List.countP_cons] at h5 ⊢
    by_cases hk : r.isRoster = true
    · simpa [Queued.fresh, hk, hr hk] using h5
    · simp only [Queued.fresh, hk]; simp; split at h5 <;> omega
  · intro z hz
    simp only [List.mem_append, List.mem_cons] at hz
    rcases hz with hz | rfl | hz
    · exact h6 z (by simp [hz])
    · simp [Queued.fresh, Config.abandonLimit]
    · exact h6 z (by simp [hz])
  · rw [List.countP_append, List.countP_cons] at h7 ⊢
    simp [Queued.fresh]; omega

/-! ### Admission -/

theorem holds_eq_false {l : Line} {p : Record → Bool} (h : l.holds p = false) :
    l.queue.countP (fun y => p y.record) = 0 := by
  rw [List.countP_eq_zero]; simpa [Line.holds, List.any_eq_false] using h

/-- A full queue gives way by one HELD, and only a HELD. -/
theorem QueueOk.evict {q : List Queued} (h : QueueOk q) (hl : ¬ q.length < 16) :
    QueueOk (evictHeld q) ∧ (evictHeld q).length < 16 := by
  have h2 := h.2.1
  have h16 : q.length = 16 := by simp [Config.queueLimit] at h2; omega
  obtain ⟨b, x, a, rfl, hx, ha⟩ := exists_last_held (h.held_of_full h16)
  refine ⟨h.sublist (evictHeld_sublist _), ?_⟩
  rw [evictHeld_split hx ha]
  simp at h16 ⊢; omega

theorem Line.queueOk_join {l : Line} {r : Record} (h : QueueOk l.queue)
    (hn : ∀ t, r.isNote t = true → l.queue.countP (fun y => y.record.isNote t) = 0)
    (hc : ∀ k, r.isClaim k = true → l.queue.countP (fun y => y.record.isClaim k) = 0)
    (hr : r.isRoster = true → l.queue.countP (fun y => y.record.isRoster) = 0) : QueueOk (l.join r).queue := by
  unfold Line.join
  split
  · next hl => exact h.join r hl hn hc hr
  · next hl =>
    obtain ⟨he, hlen⟩ := h.evict hl
    have hs := evictHeld_sublist l.queue
    refine he.join r hlen (fun t ht => ?_) (fun k hk => ?_) fun hk => ?_
    · have := hs.countP_le (p := fun y => y.record.isNote t); have := hn t ht; omega
    · have := hs.countP_le (p := fun y => y.record.isClaim k); have := hc k hk; omega
    · have := hs.countP_le (p := fun y => y.record.isRoster); have := hr hk; omega

theorem isNote_unique {x : Record} {t u : Fin 8} (h : x.isNote t = true) (k : x.isNote u = true) : t = u := by
  cases x <;> simp [Record.isNote] at h k <;> exact h.symm.trans k

theorem isClaim_unique {x : Record} {t u : Fin 3} (h : x.isClaim t = true) (k : x.isClaim u = true) : t = u := by
  cases x <;> simp [Record.isClaim] at h k
  exact h.symm.trans k

theorem cls_of_isNote {x : Record} {t : Fin 8} (h : x.isNote t = true) : x.cls = 0 := by
  cases x <;> first | rfl | simp [Record.isNote] at h

theorem cls_of_isClaim {x : Record} {t : Fin 3} (h : x.isClaim t = true) : x.cls = 2 := by
  cases x <;> first | rfl | simp [Record.isClaim] at h

theorem isClaim_of_isNote {x : Record} {t : Fin 8} (h : x.isNote t = true) (k : Fin 3) : x.isClaim k = false := by
  cases x <;> first | rfl | simp [Record.isNote] at h

theorem isRoster_of_isNote {x : Record} {t : Fin 8} (h : x.isNote t = true) : x.isRoster = false := by
  cases x <;> first | rfl | simp [Record.isNote] at h

theorem isNote_of_isClaim {x : Record} {t : Fin 3} (h : x.isClaim t = true) (u : Fin 8) : x.isNote u = false := by
  cases x <;> first | rfl | simp [Record.isClaim] at h

theorem isRoster_of_isClaim {x : Record} {t : Fin 3} (h : x.isClaim t = true) : x.isRoster = false := by
  cases x <;> first | rfl | simp [Record.isClaim] at h

/-- A NOTE record replaces the queued one of its tag or joins (R146). -/
theorem Line.queueOk_note {l : Line} {r : Record} {t : Fin 8} (h : QueueOk l.queue) (hr : r.isNote t = true) :
    QueueOk (l.replaceOrJoin (Record.isNote t) r).queue := by
  unfold Line.replaceOrJoin
  split
  · next hh =>
    obtain ⟨b, y, a, hq, hy, hb⟩ := exists_first (p := Record.isNote t) (q := l.queue) hh
    show QueueOk (replaceRecord (Record.isNote t) r l.queue)
    rw [hq, replaceRecord_split r hy hb]
    rw [hq] at h
    refine h.replace ?_ (fun u hu => ?_) (fun k hk => ?_) fun hk => ?_
    · rw [cls_of_isNote hy, cls_of_isNote hr]
    · rw [isNote_unique hu hr]; exact hy
    · rw [isClaim_of_isNote hr] at hk; cases hk
    · rw [isRoster_of_isNote hr] at hk; cases hk
  · next hh =>
    refine Line.queueOk_join h (fun u hu => ?_) (fun k hk => ?_) fun hk => ?_
    · rw [isNote_unique hu hr]; exact holds_eq_false (by simpa using hh)
    · rw [isClaim_of_isNote hr] at hk; cases hk
    · rw [isRoster_of_isNote hr] at hk; cases hk

/-- A CLAIM replaces the queued one of its rank or joins (R147). -/
theorem Line.queueOk_claim {l : Line} {r : Record} {t : Fin 3} (h : QueueOk l.queue) (hr : r.isClaim t = true) :
    QueueOk (l.replaceOrJoin (Record.isClaim t) r).queue := by
  unfold Line.replaceOrJoin
  split
  · next hh =>
    obtain ⟨b, y, a, hq, hy, hb⟩ := exists_first (p := Record.isClaim t) (q := l.queue) hh
    show QueueOk (replaceRecord (Record.isClaim t) r l.queue)
    rw [hq, replaceRecord_split r hy hb]
    rw [hq] at h
    refine h.replace ?_ (fun u hu => ?_) (fun k hk => ?_) fun hk => ?_
    · rw [cls_of_isClaim hy, cls_of_isClaim hr]
    · rw [isNote_of_isClaim hr] at hu; cases hu
    · rw [isClaim_unique hk hr]; exact hy
    · rw [isRoster_of_isClaim hr] at hk; cases hk
  · next hh =>
    refine Line.queueOk_join h (fun u hu => ?_) (fun k hk => ?_) fun hk => ?_
    · rw [isNote_of_isClaim hr] at hu; cases hu
    · rw [isClaim_unique hk hr]; exact holds_eq_false (by simpa using hh)
    · rw [isRoster_of_isClaim hr] at hk; cases hk

/-- Admission keeps the queue's law (R145 to R149). -/
theorem Line.queueOk_admit {l : Line} (h : QueueOk l.queue) (r : Record) : QueueOk (l.enqueue r).queue := by
  unfold Line.enqueue
  split
  · cases r with
    | noteStart t n ro c => exact Line.queueOk_note h (by simp [Record.isNote])
    | noteEnd t => exact Line.queueOk_note h (by simp [Record.isNote])
    | claim q k n => exact Line.queueOk_claim h (by simp [Record.isClaim])
    | held a k n re =>
      dsimp only
      split
      · next hl => exact h.join _ hl (by simp [Record.isNote]) (by simp [Record.isClaim]) (by simp [Record.isRoster])
      · exact h
    | roster =>
      dsimp only
      split
      · exact h
      · next hh =>
        refine Line.queueOk_join h (by simp [Record.isNote]) (by simp [Record.isClaim]) fun _ => ?_
        exact holds_eq_false (l := { l with rosterTimer := none }) (by simpa using hh)
  · exact h

/-! ### Where the records of a queue come from -/

theorem mem_replaceRecord {p : Record → Bool} {r : Record} {q : List Queued} {y : Queued}
    (h : y ∈ replaceRecord p r q) : y = Queued.fresh r ∨ y ∈ q := by
  induction q with
  | nil => simp [replaceRecord] at h
  | cons x xs ih =>
    unfold replaceRecord at h
    split at h
    · rcases List.mem_cons.1 h with h | h
      · exact .inl h
      · exact .inr (by simp [h])
    · rcases List.mem_cons.1 h with h | h
      · exact .inr (by simp [h])
      · rcases ih h with h | h
        · exact .inl h
        · exact .inr (by simp [h])

theorem Line.mem_join {l : Line} {r : Record} {y : Queued} (h : y ∈ (l.join r).queue) :
    y = Queued.fresh r ∨ y ∈ l.queue := by
  unfold Line.join at h
  split at h
  · exact mem_joinClass.1 h
  · rcases mem_joinClass.1 h with h | h
    · exact .inl h
    · exact .inr ((evictHeld_sublist _).subset h)

theorem Line.mem_replaceOrJoin {l : Line} {p : Record → Bool} {r : Record} {y : Queued}
    (h : y ∈ (l.replaceOrJoin p r).queue) : y = Queued.fresh r ∨ y ∈ l.queue := by
  unfold Line.replaceOrJoin at h
  split at h
  · exact mem_replaceRecord h
  · exact Line.mem_join h

/-- After an admission every record is the fresh one or was there before. -/
theorem Line.mem_admit {l : Line} {r : Record} {y : Queued} (h : y ∈ (l.enqueue r).queue) :
    y = Queued.fresh r ∨ y ∈ l.queue := by
  unfold Line.enqueue at h
  split at h
  · cases r with
    | noteStart t n ro c => exact Line.mem_replaceOrJoin h
    | noteEnd t => exact Line.mem_replaceOrJoin h
    | claim q k n => exact Line.mem_replaceOrJoin h
    | held a k n re =>
      dsimp only at h
      split at h
      · exact mem_joinClass.1 h
      · exact .inr h
    | roster =>
      dsimp only at h
      split at h
      · exact .inr h
      · exact Line.mem_join (l := { l with rosterTimer := none }) h
  · exact .inr h

end Sys2Proof.Machine
end

