-- ==== Sys2Proof/Laws/Voices.lean ====
section
/-!
SUPPORT. Slots: what a release, its NOTE_END placement and an allocation do (R52 to R60, R71).
-/

namespace Sys2Proof.Machine

/-! ### Records admitted for a tag or a rank -/

theorem mem_replaceRecord_new {p : Record → Bool} {r : Record} {q : List Queued} (h : ∃ y ∈ q, p y.record = true) :
    Queued.fresh r ∈ replaceRecord p r q := by
  induction q with
  | nil => obtain ⟨y, hy, -⟩ := h; cases hy
  | cons x xs ih =>
    unfold replaceRecord
    split
    · exact List.mem_cons_self
    · next hx =>
      obtain ⟨y, hy, hp⟩ := h
      rcases List.mem_cons.1 hy with rfl | hy
      · exact absurd hp hx
      · exact List.mem_cons_of_mem _ (ih ⟨y, hy, hp⟩)

theorem Line.fresh_mem_join (l : Line) (r : Record) : Queued.fresh r ∈ (l.join r).queue := by
  unfold Line.join
  split <;> exact mem_joinClass.2 (.inl rfl)

theorem Line.fresh_mem_replaceOrJoin (l : Line) (p : Record → Bool) (r : Record) :
    Queued.fresh r ∈ (l.replaceOrJoin p r).queue := by
  unfold Line.replaceOrJoin
  split
  · next h =>
    refine mem_replaceRecord_new ?_
    simpa [Line.holds] using h
  · exact Line.fresh_mem_join l r

/-- A record that is no HELD and no ROSTER is in the queue once it is admitted (R146 to R148). -/
theorem Line.fresh_mem_admit {l : Line} {r : Record} (ha : l.state = .active) (hh : r.isHeld = false)
    (hr : r.isRoster = false) : Queued.fresh r ∈ (l.enqueue r).queue := by
  unfold Line.enqueue
  rw [if_pos ha]
  cases r with
  | noteStart t n ro c => exact Line.fresh_mem_replaceOrJoin ..
  | noteEnd t => exact Line.fresh_mem_replaceOrJoin ..
  | claim q k n => exact Line.fresh_mem_replaceOrJoin ..
  | held a k n re => cases hh
  | roster => cases hr

/-! ### Slots, ranks and banks that record work leaves alone -/

@[simp] theorem placeNoteEnd_slots (t : Fin 8) (s : State) : (placeNoteEnd t s).slots = s.slots := by
  simp only [placeNoteEnd]; split <;> rfl

@[simp] theorem placeNoteEnd_harmony (t : Fin 8) (s : State) : (placeNoteEnd t s).harmony = s.harmony := by
  simp only [placeNoteEnd]; split <;> rfl

@[simp] theorem placeNoteEnd_banks (t : Fin 8) (s : State) : (placeNoteEnd t s).banks = s.banks := by
  simp only [placeNoteEnd]; split <;> rfl

@[simp] theorem placeNoteEnd_loader (t : Fin 8) (s : State) : (placeNoteEnd t s).loader = s.loader := by
  simp only [placeNoteEnd]; split <;> rfl

@[simp] theorem queueNoteStart_slots (t : Fin 8) (s : State) : (queueNoteStart t s).slots = s.slots := by
  unfold queueNoteStart; split <;> rfl

@[simp] theorem queueNoteStart_harmony (t : Fin 8) (s : State) : (queueNoteStart t s).harmony = s.harmony := by
  unfold queueNoteStart; split <;> rfl

/-- A NOTE_END placement leaves no NOTE_START of its tag, and admits nothing but its NOTE_END (R60). -/
theorem mem_placeNoteEnd {t : Fin 8} {s : State} {y : Queued} (h : y ∈ (placeNoteEnd t s).line.queue) :
    y.record.isNoteStart t = false ∧ (y = Queued.fresh (.noteEnd t) ∨ y ∈ s.line.queue) := by
  have hrem : ∀ z ∈ (removeRecords (Record.isNoteStart t) s).line.queue,
      z.record.isNoteStart t = false ∧ z ∈ s.line.queue := by
    intro z hz
    simp only [removeRecords_line, Line.remove, List.mem_filter, Bool.not_eq_true'] at hz
    exact ⟨hz.2, hz.1⟩
  simp only [placeNoteEnd] at h
  split at h
  · rw [admit_line] at h
    rcases Line.mem_admit h with rfl | h
    · exact ⟨rfl, .inl rfl⟩
    · exact ⟨(hrem y h).1, .inr (hrem y h).2⟩
  · exact ⟨(hrem y h).1, .inr (hrem y h).2⟩

/-- In ACTIVE the NOTE_END of an announced tag, or of one the frame under way announces, is queued (R60). -/
theorem noteEnd_mem_placeNoteEnd {t : Fin 8} {s : State} (ha : s.line.state = .active)
    (h : (s.slot t).announced = true ∨ s.line.announces t = true) :
    Queued.fresh (.noteEnd t) ∈ (placeNoteEnd t s).line.queue := by
  have hc : (((removeRecords (Record.isNoteStart t) s).slot t).announced ||
      (removeRecords (Record.isNoteStart t) s).line.announces t) = true := by
    rw [Bool.or_eq_true]; exact h
  simp only [placeNoteEnd]
  rw [if_pos hc, admit_line]
  exact Line.fresh_mem_admit ha rfl rfl

/-- A NOTE_END placement moves the line alone: no NOTE_START of the tag is kept, and the NOTE_END is admitted where the tag is
announced or the frame under way announces it (R60). -/
theorem placeNoteEnd_eq (u : Fin 8) (s : State) : placeNoteEnd u s = { s with line :=
    (let kept := { s.line with queue := s.line.queue.filter fun y => !y.record.isNoteStart u }
     if (s.slot u).announced = true ∨ s.line.announces u = true then kept.enqueue (.noteEnd u) else kept) } := by
  by_cases h : (s.slot u).announced = true ∨ s.line.announces u = true
  · simp only [if_pos h]
    exact if_pos (Bool.or_eq_true _ _ ▸ h)
  · simp only [if_neg h]
    exact if_neg (Bool.or_eq_true _ _ ▸ h)

/-! ### Releases -/

theorem releaseSlot_of_active {mode : VoiceState} {t : Fin 8} {s : State} {v : Voice} (h : s.voice t = some v)
    (ha : v.active = true) :
    releaseSlot mode t s = placeNoteEnd t (setVoice t (some { v with state := mode }) s) := by
  unfold releaseSlot; rw [h]; simp [ha]

/-- A slot that is FREE or RELEASING is not released again (R59). -/
theorem releaseSlot_of_not_active {mode : VoiceState} {t : Fin 8} {s : State}
    (h : ∀ v, s.voice t = some v → v.active = false) : releaseSlot mode t s = s := by
  unfold releaseSlot
  split
  · next v hv => simp [h v hv]
  · rfl

@[simp] theorem releaseSlot_harmony (mode : VoiceState) (t : Fin 8) (s : State) :
    (releaseSlot mode t s).harmony = s.harmony := by
  unfold releaseSlot
  split
  · split <;> simp
  · rfl

@[simp] theorem releaseSlot_banks (mode : VoiceState) (t : Fin 8) (s : State) : (releaseSlot mode t s).banks = s.banks := by
  unfold releaseSlot
  split
  · split <;> simp
  · rfl

@[simp] theorem releaseSlot_loader (mode : VoiceState) (t : Fin 8) (s : State) :
    (releaseSlot mode t s).loader = s.loader := by
  unfold releaseSlot
  split
  · split <;> simp
  · rfl

/-- A release changes the state of the released voice alone; the announced flags stay (R58 to R61). -/
theorem releaseSlot_slot (mode : VoiceState) (t u : Fin 8) (s : State) :
    (releaseSlot mode t s).slot u = if u = t then
      { s.slot t with voice := (s.voice t).map fun v => if v.active then { v with state := mode } else v }
      else s.slot u := by
  cases hv : s.voice t with
  | none =>
    rw [releaseSlot_of_not_active (by simp [hv])]
    split
    · next h =>
      subst h
      rw [Option.map_none, ← hv]; rfl
    · rfl
  | some v =>
    by_cases ha : v.active = true
    · rw [releaseSlot_of_active hv ha, slot_congr (placeNoteEnd_slots _ _), slot_setVoice]
      simp [ha]
    · rw [releaseSlot_of_not_active (by simpa [hv] using ha)]
      split
      · next h =>
        subst h
        simp only [Option.map_some, ha, Bool.false_eq_true, if_false]
        rw [← hv]; rfl
      · rfl

theorem releaseSlot_voice (mode : VoiceState) (t u : Fin 8) (s : State) :
    (releaseSlot mode t s).voice u = if u = t then
      (s.voice t).map fun v => if v.active then { v with state := mode } else v
      else s.voice u := by
  unfold State.voice
  rw [releaseSlot_slot]
  split <;> rfl

@[simp] theorem releaseSlot_announced (mode : VoiceState) (t u : Fin 8) (s : State) :
    ((releaseSlot mode t s).slot u).announced = (s.slot u).announced := by
  rw [releaseSlot_slot]
  split
  · next h => subst h; rfl
  · rfl

/-! ### Allocation -/

/-- The FREE slot an allocation takes is the lowest-numbered (R52). -/
theorem freeTag_spec {s : State} {t : Fin 8} (h : s.freeTag = some t) :
    s.voice t = none ∧ ∀ u, u < t → s.voice u ≠ none := by
  have h1 := List.find?_some h
  simp only [decide_eq_true_eq] at h1
  refine ⟨h1, fun u hu hn => ?_⟩
  unfold State.freeTag allEight at h
  rw [List.find?_eq_some_iff_append] at h
  obtain ⟨-, as, bs, hl, hall⟩ := h
  have hu' : u ∈ as := by
    have hmem : ∀ k : Fin 8, ∀ as bs : List (Fin 8),
        ([0, 1, 2, 3, 4, 5, 6, 7] : List (Fin 8)) = as ++ k :: bs → ∀ j, j < k → j ∈ as := by
      intro k as bs hk j hj
      have hs : (as ++ k :: bs).Pairwise (fun a b => a < b) := by rw [← hk]; decide
      have hj' : j ∈ as ++ k :: bs := by rw [← hk]; fin_cases j <;> decide
      rcases List.mem_append.1 hj' with hj' | hj'
      · exact hj'
      · rcases List.mem_cons.1 hj' with rfl | hj'
        · exact absurd hj (lt_irrefl _)
        · have := List.rel_of_pairwise_cons (List.pairwise_append.1 hs).2.1 hj'
          exact absurd hj (not_lt.2 (le_of_lt this))
    exact hmem t as bs hl u hu
  have := hall u hu'
  simp [hn] at this

/-- Without a FREE slot, none is found (R52). -/
theorem freeTag_none {s : State} (h : s.freeTag = none) (u : Fin 8) : s.voice u ≠ none := by
  unfold State.freeTag at h
  rw [List.find?_eq_none] at h
  have := h u (by fin_cases u <;> decide)
  simpa using this

/-- What the search for the slot to steal holds so far: a RELEASING slot of the slots looked at, none of which is quieter, nor as
quiet with a lower number (R52). -/
abbrev Quietest (s : State) (seen : List (Fin 8)) : Option (Fin 8 × Nat) → Prop
  | none => ∀ w ∈ seen, ∀ x, s.voice w = some x → x.releasing = false
  | some (t, g) =>
    t ∈ seen ∧ (∃ v, s.voice t = some v ∧ v.releasing = true ∧ s.gain t = g) ∧
      ∀ w ∈ seen, ∀ x, s.voice w = some x → x.releasing = true → g < s.gain w ∨ (g = s.gain w ∧ t ≤ w)

theorem quietest_step {s : State} {seen : List (Fin 8)} {best : Option (Fin 8 × Nat)} {t : Fin 8}
    (h : Quietest s seen best) (ht : ∀ w ∈ seen, w < t) : Quietest s (seen ++ [t]) (s.quieter best t) := by
  unfold State.quieter
  cases hv : s.voice t with
  | none =>
    cases best with
    | none =>
      intro w hw x hx
      rcases List.mem_append.1 hw with hw | hw
      · exact h w hw x hx
      · rw [List.mem_singleton.1 hw, hv] at hx; cases hx
    | some b =>
      obtain ⟨b, g⟩ := b
      refine ⟨List.mem_append_left _ h.1, h.2.1, fun w hw x hx hr => ?_⟩
      rcases List.mem_append.1 hw with hw | hw
      · exact h.2.2 w hw x hx hr
      · rw [List.mem_singleton.1 hw, hv] at hx; cases hx
  | some v =>
    dsimp only
    by_cases hr : v.releasing = true
    · rw [if_pos hr]
      cases best with
      | none =>
        refine ⟨by simp, ⟨v, hv, hr, rfl⟩, fun w hw x hx hxr => ?_⟩
        rcases List.mem_append.1 hw with hw | hw
        · rw [h w hw x hx] at hxr; cases hxr
        · exact .inr ⟨by rw [List.mem_singleton.1 hw], by rw [List.mem_singleton.1 hw]⟩
      | some b =>
        obtain ⟨b, g⟩ := b
        dsimp only
        by_cases hg : s.gain t < g
        · rw [if_pos hg]
          refine ⟨by simp, ⟨v, hv, hr, rfl⟩, fun w hw x hx hxr => ?_⟩
          rcases List.mem_append.1 hw with hw | hw
          · rcases h.2.2 w hw x hx hxr with hlt | ⟨he, -⟩
            · exact .inl (by omega)
            · exact .inl (by omega)
          · exact .inr ⟨by rw [List.mem_singleton.1 hw], by rw [List.mem_singleton.1 hw]⟩
        · rw [if_neg hg]
          refine ⟨List.mem_append_left _ h.1, h.2.1, fun w hw x hx hxr => ?_⟩
          rcases List.mem_append.1 hw with hw | hw
          · exact h.2.2 w hw x hx hxr
          · have hwt := List.mem_singleton.1 hw
            have := ht b h.1
            rcases Nat.lt_or_eq_of_le (Nat.le_of_not_lt hg) with hlt | he
            · exact .inl (by rw [hwt]; exact hlt)
            · exact .inr ⟨by rw [hwt]; exact he, by rw [hwt]; exact le_of_lt this⟩
    · rw [if_neg hr]
      cases best with
      | none =>
        intro w hw x hx
        rcases List.mem_append.1 hw with hw | hw
        · exact h w hw x hx
        · rw [List.mem_singleton.1 hw, hv] at hx
          cases hx
          simpa using hr
      | some b =>
        obtain ⟨b, g⟩ := b
        refine ⟨List.mem_append_left _ h.1, h.2.1, fun w hw x hx hxr => ?_⟩
        rcases List.mem_append.1 hw with hw | hw
        · exact h.2.2 w hw x hx hxr
        · rw [List.mem_singleton.1 hw, hv] at hx
          cases hx
          exact absurd hxr hr

/-- The search over all eight slots (R52). -/
theorem quietest_all (s : State) : Quietest s allEight (allEight.foldl s.quieter none) := by
  have h0 : Quietest s [] none := fun w hw => by cases hw
  have h1 := quietest_step (t := 0) h0 (by decide)
  have h2 := quietest_step (t := 1) h1 (by decide)
  have h3 := quietest_step (t := 2) h2 (by decide)
  have h4 := quietest_step (t := 3) h3 (by decide)
  have h5 := quietest_step (t := 4) h4 (by decide)
  have h6 := quietest_step (t := 5) h5 (by decide)
  have h7 := quietest_step (t := 6) h6 (by decide)
  exact quietest_step (t := 7) h7 (by decide)

/-- The slot an allocation steals is RELEASING at the lowest gain current, the lowest-numbered of those (R52). -/
theorem stealTag_spec {s : State} {t : Fin 8} (h : s.stealTag = some t) :
    ∃ v, s.voice t = some v ∧ v.releasing = true ∧ ∀ w x, s.voice w = some x → x.releasing = true →
      s.gain t < s.gain w ∨ (s.gain t = s.gain w ∧ t ≤ w) := by
  have hq := quietest_all s
  unfold State.stealTag at h
  cases hb : allEight.foldl s.quieter none with
  | none => rw [hb] at h; cases h
  | some b =>
    obtain ⟨b, g⟩ := b
    rw [hb] at h hq
    simp only [Option.map_some, Option.some.injEq] at h
    subst h
    obtain ⟨-, ⟨v, hv, hr, rfl⟩, hall⟩ := hq
    exact ⟨v, hv, hr, fun w x hx hxr => hall w (by fin_cases w <;> decide) x hx hxr⟩

theorem stealTag_none {s : State} (h : s.stealTag = none) (w : Fin 8) (x : Voice) (hx : s.voice w = some x) :
    x.releasing = false := by
  have hq := quietest_all s
  unfold State.stealTag at h
  rw [Option.map_eq_none_iff] at h
  rw [h] at hq
  exact hq w (by fin_cases w <;> decide) x hx

/-- The slot an allocation takes is the one R52 names. -/
theorem takes_of_allocationTag {s : State} {t : Fin 8} (h : s.allocationTag = some t) : s.Takes t := by
  unfold State.allocationTag at h
  split at h
  · next u hu =>
    cases h
    exact .inl (freeTag_spec hu)
  · next hf =>
    obtain ⟨v, hv, hr, hall⟩ := stealTag_spec h
    exact .inr ⟨fun w => freeTag_none hf w, ⟨v, hv, hr⟩, fun w x hx => hall w x hx⟩

/-- R52 names one slot. -/
theorem State.Takes.unique {s : State} {t u : Fin 8} (ht : s.Takes t) (hu : s.Takes u) : t = u := by
  rcases ht with ⟨hn, hlow⟩ | ⟨hfull, ⟨v, hv, hr⟩, hall⟩ <;> rcases hu with ⟨kn, klow⟩ | ⟨kfull, ⟨w, kw, kr⟩, kall⟩
  · rcases lt_trichotomy t u with h | h | h
    · exact absurd hn (klow t h)
    · exact h
    · exact absurd kn (hlow u h)
  · exact absurd hn (kfull t)
  · exact absurd kn (hfull u)
  · rcases hall u w kw kr with h | ⟨h, htu⟩ <;> rcases kall t v hv hr with k | ⟨k, hut⟩
    · exact absurd h (by omega)
    · exact absurd h (by omega)
    · exact absurd k (by omega)
    · exact le_antisymm htu hut

/-- An allocation takes the slot of R52, where there is one. -/
theorem allocationTag_eq_some_iff {s : State} {t : Fin 8} : s.allocationTag = some t ↔ s.Takes t := by
  refine ⟨takes_of_allocationTag, fun h => ?_⟩
  cases ha : s.allocationTag with
  | some u => rw [(takes_of_allocationTag ha).unique h]
  | none =>
    unfold State.allocationTag at ha
    split at ha
    · cases ha
    · next hf =>
      rcases h with ⟨hn, -⟩ | ⟨-, ⟨v, hv, hr⟩, -⟩
      · exact absurd hn (freeTag_none hf t)
      · rw [stealTag_none ha t v hv] at hr; cases hr

/-- An allocation that takes a slot puts the new voice there, silent and at phase 0, and a bank may go to LOADING; the announced flags
and every other slot stay (R52, R53, R71). -/
theorem allocate_some {role : Role} {note : Nat} {b : BankId} {o : Option Nat} {s t : State} {u : Fin 8}
    (h : allocate role note b o s = (some u, t)) :
    s.allocationTag = some u ∧ t = loadPending (setSlot u ((s.slot u).start (s.newVoice role note b o)) s) := by
  unfold allocate at h
  split at h
  · next w hw =>
    simp only [Prod.mk.injEq, Option.some.injEq] at h
    obtain ⟨rfl, rfl⟩ := h
    exact ⟨hw, rfl⟩
  · simp at h

@[simp] theorem loadUnreferenced_slots (b : BankId) (s : State) : (loadUnreferenced b s).slots = s.slots := by
  unfold loadUnreferenced
  split
  · split
    · rfl
    · simp
  · rfl

@[simp] theorem loadPending_slots (s : State) : (loadPending s).slots = s.slots := by simp [loadPending]

@[simp] theorem loadUnreferenced_harmony (b : BankId) (s : State) : (loadUnreferenced b s).harmony = s.harmony := by
  unfold loadUnreferenced
  split
  · split
    · rfl
    · simp
  · rfl

@[simp] theorem loadPending_harmony (s : State) : (loadPending s).harmony = s.harmony := by simp [loadPending]

@[simp] theorem loadUnreferenced_line (b : BankId) (s : State) : (loadUnreferenced b s).line = s.line := by
  unfold loadUnreferenced
  split
  · split
    · rfl
    · simp
  · rfl

@[simp] theorem loadPending_line (s : State) : (loadPending s).line = s.line := by simp [loadPending]

/-- What a PENDING bank that lost its last reference becomes; any other bank stays (R71). -/
theorem loadUnreferenced_bank (b c : BankId) (s : State) :
    (loadUnreferenced b s).bank c =
      if c = b ∧ s.referenced b = false then
        match s.bank b with
        | .pending n _ => .loading n
        | x => x
      else s.bank c := by
  unfold loadUnreferenced
  cases hb : s.bank b with
  | pending n k =>
    cases hr : s.referenced b with
    | true => simp
    | false =>
      have h := bank_setBank s b c (.loading n)
      by_cases hc : c = b
      · subst hc
        simp only [Bool.false_eq_true, if_false, and_self, if_true]
        rw [if_pos rfl] at h
        exact (bank_congr rfl c).trans h
      · simp only [hc, Bool.false_eq_true, if_false, false_and]
        rw [if_neg hc] at h
        exact (bank_congr rfl c).trans h
  | empty => dsimp only; split <;> simp_all
  | loading n => dsimp only; split <;> simp_all
  | ready k => dsimp only; split <;> simp_all

end Sys2Proof.Machine
end

