-- ==== Sys2Proof/Laws/Harmony.lean ====
section
/-!
SUPPORT. The Harmony Ranks: the number a claim takes, the walk of a plan, and what a withdrawal, a yield's giving up, an abandonment
and an idling leave of the ranks (R98 to R103, R109, R116, R117).
-/

namespace Sys2Proof.Machine

/-! ### Claim numbers -/

theorem advancePast_spec (used : List Byte) (fuel : Nat) (c : Byte) :
    advancePast used fuel c ∉ used ∨ ∀ i, i < fuel + 1 → c + BitVec.ofNat 8 i ∈ used := by
  induction fuel generalizing c with
  | zero =>
    by_cases h : c ∈ used
    · refine .inr fun i hi => ?_
      obtain rfl : i = 0 := by omega
      simpa using h
    · exact .inl h
  | succ n ih =>
    unfold advancePast
    split
    · next h =>
      rcases ih (c + 1) with h1 | h1
      · exact .inl h1
      · refine .inr fun i hi => ?_
        cases i with
        | zero => simpa using h
        | succ j =>
          have h2 := h1 j (by omega)
          have he : c + 1 + BitVec.ofNat 8 j = c + BitVec.ofNat 8 (j + 1) := by
            rw [BitVec.add_assoc]
            congr 1
            apply BitVec.eq_of_toNat_eq
            have h1 : (1 : Byte).toNat = 1 := rfl
            simp only [BitVec.toNat_add, BitVec.toNat_ofNat, h1]
            omega
          rwa [he] at h2
    · next h => exact .inl h

theorem usedNumbers_length (s : State) (r : Fin 3) : (s.usedNumbers r).length ≤ 2 := by
  unfold State.usedNumbers allRanks
  fin_cases r <;> simp only [List.filterMap_cons, List.filterMap_nil] <;> simp <;>
    (repeat' split) <;> simp

theorem mem_usedNumbers {s : State} {r q : Fin 3} {c : Claim} (hq : q ≠ r) (ho : (s.rank q).outstanding = true)
    (hc : (s.rank q).claim = some c) : c.number ∈ s.usedNumbers r := by
  unfold State.usedNumbers
  rw [List.mem_filterMap]
  refine ⟨q, by fin_cases q <;> decide, ?_⟩
  rw [if_neg hq, if_pos ho, hc]; rfl

/-- A new claim takes a number no other outstanding claim has (R99). -/
theorem claimNumber_fresh (s : State) (r : Fin 3) : s.claimNumber r ∉ s.usedNumbers r := by
  rcases advancePast_spec (s.usedNumbers r) 3 s.harmony.counter with h | h
  · exact h
  · exfalso
    have hl := usedNumbers_length s r
    have h0 := h 0 (by omega)
    have h1 := h 1 (by omega)
    have h2 := h 2 (by omega)
    have hn : [s.harmony.counter + BitVec.ofNat 8 0, s.harmony.counter + BitVec.ofNat 8 1,
        s.harmony.counter + BitVec.ofNat 8 2].Nodup := by
      simp only [List.nodup_cons, List.mem_cons, List.not_mem_nil, or_false, not_or, List.nodup_nil, and_true,
        not_false_eq_true]
      refine ⟨⟨?_, ?_⟩, ?_⟩ <;> intro he <;> have := add_left_cancel he <;> revert this <;> decide
    have hsub : [s.harmony.counter + BitVec.ofNat 8 0, s.harmony.counter + BitVec.ofNat 8 1,
        s.harmony.counter + BitVec.ofNat 8 2] ⊆ s.usedNumbers r := by
      intro x hx
      simp only [List.mem_cons, List.not_mem_nil, or_false] at hx
      rcases hx with rfl | rfl | rfl
      · exact h0
      · exact h1
      · exact h2
    have := (List.subperm_of_subset hn hsub).length_le
    simp at this
    omega

/-! ### The walk of a plan -/

/-- A walk that finds nothing has met no eligible candidate (R101, R103). -/
theorem walk_none {s : State} {r : Fin 3} {lead : Nat} {intervals : List Int} {pos : Nat}
    (h : s.walk r lead intervals pos = none) :
    ∀ i ∈ intervals, ¬ (i ≠ 0 ∧ s.eligible r (fold ((lead : Int) + i)) = true) := by
  induction intervals generalizing pos with
  | nil => simp
  | cons i rest ih =>
    unfold State.walk at h
    split at h
    · cases h
    · next hi =>
      intro j hj
      rcases List.mem_cons.1 hj with rfl | hj
      · exact hi
      · exact ih h j hj

/-- A walk that finds a candidate has found the first eligible one, at its position (R101). -/
theorem walk_some {s : State} {r : Fin 3} {lead : Nat} {intervals : List Int} {start pos note : Nat}
    (h : s.walk r lead intervals start = some (pos, note)) :
    ∃ before i after, intervals = before ++ i :: after ∧ pos = start + before.length ∧
      note = fold ((lead : Int) + i) ∧ i ≠ 0 ∧ s.eligible r note = true ∧
      ∀ j ∈ before, ¬ (j ≠ 0 ∧ s.eligible r (fold ((lead : Int) + j)) = true) := by
  induction intervals generalizing start with
  | nil => simp [State.walk] at h
  | cons i rest ih =>
    unfold State.walk at h
    split at h
    · next hi =>
      simp only [Option.some.injEq, Prod.mk.injEq] at h
      obtain ⟨rfl, rfl⟩ := h
      exact ⟨[], i, rest, rfl, by simp, rfl, hi.1, hi.2, by simp⟩
    · next hi =>
      obtain ⟨b, k, a, rfl, rfl, hn, hk, he, hb⟩ := ih h
      refine ⟨i :: b, k, a, rfl, by simp only [List.length_cons]; omega, hn, hk, he, fun j hj => ?_⟩
      rcases List.mem_cons.1 hj with rfl | hj
      · exact hi
      · exact hb j hj

/-! ### What the ranks' own work leaves of the ranks -/

/-- A rank's slot holds a voice that is not RELEASING (R95). -/
theorem active_of_rankTag {s : State} {r : Fin 3} {u : Fin 8} {v : Voice} (h : s.rankTag r = some u)
    (hv : s.voice u = some v) : v.active = true := by
  unfold State.rankTag at h
  split at h
  · split at h
    · split at h
      · simp_all
      · cases h
    · cases h
  · cases h

/-- A withdrawal of a rank without a slot (R58). -/
theorem withdraw_of_no_tag {s : State} {r : Fin 3} (h : s.rankTag r = none) :
    withdraw r s = setRank r { s.rank r with slot := none } s := by
  unfold withdraw; rw [h]

/-- A withdrawal of a rank with a slot: its voice RELEASING in WITHDRAW mode, its NOTE_END placed, nothing else (R58, R60). -/
theorem withdraw_of_tag {s : State} {r : Fin 3} {u : Fin 8} {v : Voice} (h : s.rankTag r = some u)
    (hv : s.voice u = some v) :
    withdraw r s = setRank r { s.rank r with slot := none }
      (placeNoteEnd u (setVoice u (some { v with state := .releasingWithdraw none }) s)) := by
  unfold withdraw
  rw [h]
  dsimp only
  rw [releaseSlot_of_active hv (active_of_rankTag h hv), rank_congr (placeNoteEnd_harmony _ _)]
  rfl

/-- A withdrawal takes the slot from the rank and leaves the rest of the ranks (R58, R95). -/
theorem withdraw_rank (r q : Fin 3) (s : State) :
    (withdraw r s).rank q = if q = r then { s.rank r with slot := none } else s.rank q := by
  unfold withdraw
  cases hs : s.rankTag r with
  | none =>
    dsimp only
    rw [rank_setRank]
  | some t =>
    dsimp only
    rw [rank_setRank]
    split
    · rw [rank_congr (releaseSlot_harmony _ _ _)]
    · rw [rank_congr (releaseSlot_harmony _ _ _)]

/-- The giving up of a claim: IDLE with no claim and no slot, position and refused list kept; other ranks stay (R98, R109). -/
theorem giveUp_rank (r q : Fin 3) (s : State) :
    (giveUp r s).rank q = if q = r then
      { s.rank r with stage := .idle, claim := none, slot := none, localDue := false } else s.rank q := by
  have h : ∀ p, (removeRecords (Record.isClaim r) (withdraw r s)).rank p = (withdraw r s).rank p := fun p => rfl
  simp only [giveUp]
  rw [rank_setRank]
  split
  · rw [h, withdraw_rank, if_pos rfl]
  · next hq => rw [h, withdraw_rank, if_neg hq]

/-- No CLAIM of a rank that gave up is queued (R109). -/
theorem giveUp_no_claim {r : Fin 3} {s : State} {y : Queued} (h : y ∈ (giveUp r s).line.queue) :
    y.record.isClaim r = false := by
  simp only [giveUp, setRank_line, removeRecords_line, Line.remove, List.mem_filter, Bool.not_eq_true'] at h
  exact h.2

/-- A lead-note change leaves a rank its slot and nothing else (R116). -/
theorem abandonClaim_rank (r q : Fin 3) (s : State) :
    (abandonClaim r s).rank q = if q = r then
      { s.rank r with stage := .idle, claim := none, position := 0, refused := [], localDue := false } else s.rank q := by
  simp only [abandonClaim]
  rw [rank_setRank]
  rfl

/-- A release leaves a rank nothing (R117). -/
theorem idleRank_rank (r q : Fin 3) (s : State) :
    (idleRank r s).rank q = if q = r then
      { s.rank r with stage := .idle, claim := none, position := 0, refused := [], slot := none, localDue := false }
      else s.rank q := by
  simp only [idleRank]
  rw [rank_setRank]
  rfl

/-- Only a QUEUED rank becomes LOCAL_PENDING (R105, R106). -/
theorem makeLocal_rank (r q : Fin 3) (s : State) :
    (makeLocal r s).rank q =
      if q = r ∧ (s.rank r).stage = .queued then { s.rank r with stage := .localPending, localDue := false }
      else s.rank q := by
  unfold makeLocal
  split
  · next h =>
    rw [rank_setRank]
    by_cases hq : q = r <;> simp [hq, h]
  · next h => simp [h]

/-- EXHAUSTED holds no claim and no slot; the position and the refused list stay (R103). -/
theorem exhaust_rank (r q : Fin 3) (s : State) :
    (exhaust r s).rank q = if q = r then
      { s.rank r with stage := .exhausted, claim := none, slot := none, localDue := false } else s.rank q := by
  simp only [exhaust]
  rw [rank_setRank]
  split
  · rw [withdraw_rank, if_pos rfl]
  · next hq => rw [withdraw_rank, if_neg hq]

/-- The slot request of a claim leaves the ranks (R100, R102). -/
@[simp] theorem requestSlot_harmony (r : Fin 3) (note : Nat) (b : BankId) (keep : Bool) (s : State) :
    (requestSlot r note b keep s).2.harmony = s.harmony := by
  unfold requestSlot
  split
  · unfold retarget; split <;> rfl
  · unfold allocate
    split
    · simp
    · rfl

/-- A claim: its number, note and position, the stage by the line state; the other ranks stay (R99, R102). -/
theorem makeClaim_rank (r : Fin 3) (pos note : Nat) (b : BankId) (keep : Bool) (s : State) :
    ((makeClaim r pos note b keep s).rank r).claim = some { number := s.claimNumber r, note := note } ∧
      ((makeClaim r pos note b keep s).rank r).stage = (if s.line.state = .active then .queued else .localPending) ∧
      ((makeClaim r pos note b keep s).rank r).position = pos ∧
      ((makeClaim r pos note b keep s).rank r).refused = (s.rank r).refused ∧
      ((makeClaim r pos note b keep s).rank r).queuedAge = 0 ∧
      (makeClaim r pos note b keep s).harmony.counter = s.claimNumber r + 1 ∧
      ∀ q, q ≠ r → (makeClaim r pos note b keep s).rank q = s.rank q := by
  have hw := (voiceWork_requestSlot r note b keep
    { s with harmony := { s.harmony with counter := s.claimNumber r + 1 } }).lineState
  have hh := requestSlot_harmony r note b keep { s with harmony := { s.harmony with counter := s.claimNumber r + 1 } }
  simp only [makeClaim]
  generalize requestSlot r note b keep { s with harmony := { s.harmony with counter := s.claimNumber r + 1 } } = x at *
  obtain ⟨tag, t⟩ := x
  dsimp only at hw hh ⊢
  have hr : ∀ q, t.rank q = s.rank q := fun q => by unfold State.rank; rw [hh]
  by_cases ha : s.line.state = .active
  · have ht : t.line.state = .active := hw.trans ha
    simp only [ht, decide_true, if_true, ha]
    refine ⟨?_, ?_, ?_, ?_, ?_, ?_, ?_⟩
    all_goals first
      | (intro q hq
         rw [rank_congr (admit_harmony _ _), rank_setRank, if_neg hq]; exact hr q)
      | (rw [rank_congr (admit_harmony _ _), rank_setRank_same]; done)
      | (rw [rank_congr (admit_harmony _ _), rank_setRank_same]; show (t.rank r).refused = _; rw [hr r])
      | (rw [admit_harmony, setRank_counter, hh])
  · have ht : ¬ t.line.state = .active := fun k => ha (hw.symm.trans k)
    simp only [ht, decide_false, Bool.false_eq_true, if_false, ha]
    refine ⟨?_, ?_, ?_, ?_, ?_, ?_, ?_⟩
    all_goals first
      | (intro q hq
         rw [rank_setRank, if_neg hq]; exact hr q)
      | (rw [rank_setRank_same]; done)
      | (rw [rank_setRank_same]; show (t.rank r).refused = _; rw [hr r])
      | (rw [setRank_counter, hh])

/-- A yield of a rank that holds no claim is nothing (R109). -/
theorem yieldRank_of_no_claim {r : Fin 3} {s : State} (h : (s.rank r).claim = none) : yieldRank r s = s := by
  unfold yieldRank; rw [h]

/-- With no SOUNDING lead slot no rank plans (R100). -/
theorem plan_of_no_lead {r : Fin 3} {start : Nat} {keep : Bool} {s : State} (h : s.leadVoice = none) :
    plan r start keep s = s := by
  unfold plan; rw [h]

/-- A rank after a change of enables: a disable yield, a plan from the kept position, or nothing (R98, R100). -/
theorem enableChanged_eq (r : Fin 3) (before after : Bool) (s : State) :
    enableChanged r before after s =
      if before = true ∧ after = false then disableYield r s
      else if before = false ∧ after = true then plan r (s.rank r).position false s
      else s := by
  unfold enableChanged
  by_cases h : s.leadTag = none
  · have hv : s.leadVoice = none := by unfold State.leadVoice; rw [h]
    cases before <;> cases after <;> simp [h, plan_of_no_lead hv]
  · cases before <;> cases after <;> simp [h]

/-- A change of the settings that enter the enables, rank by rank in rank order (R98). -/
theorem changeEnables_eq (f : State → State) (s : State) :
    changeEnables f s = allRanks.foldl (fun x r =>
      if s.enabled r = true ∧ (f s).enabled r = false then disableYield r x
      else if s.enabled r = false ∧ (f s).enabled r = true then plan r (x.rank r).position false x
      else x) (f s) := by
  unfold changeEnables
  simp only [enableChanged_eq]

/-- The refused list takes a note once and holds three at most (R109, R117). -/
theorem refuse_ok {note : Nat} {l : List Nat} (hn : l.Nodup) (hl : l.length ≤ 3) :
    (refuse note l).Nodup ∧ (refuse note l).length ≤ 3 ∧ (note ∈ refuse note l ∨ 3 ≤ (refuse note l).length) := by
  unfold refuse Config.refusedLimit
  split
  · next h =>
    refine ⟨hn, hl, h⟩
  · next h =>
    have h1 : note ∉ l := fun k => h (.inl k)
    have h2 : ¬ 3 ≤ l.length := fun k => h (.inr k)
    refine ⟨?_, by simp only [List.length_append, List.length_cons, List.length_nil]; omega, by simp⟩
    rw [List.nodup_append]
    refine ⟨hn, by simp, ?_⟩
    intro a ha b hb
    rw [List.mem_singleton.1 hb]
    rintro rfl
    exact h1 ha

end Sys2Proof.Machine
end

