-- ==== Sys2Proof/Laws/Increment.lean ====
section
/-!
SUPPORT. The increment table against its formula (R90): every entry is the whole number nearest to 2^32 × 440 / 48000 ×
2^((5100 + k) / 1200), compared exactly by the 1200th powers of both sides; and the table rises.
-/

namespace Sys2Proof.Machine

/-- Entry `k` lies within one half of the formula of R90: twice it less one and twice it plus one, times 48000, stand around
2^33 × 440 × 2^((5100 + k) / 1200), all to the 1200th power. -/
def nearestEntry (k : Nat) : Bool :=
  let e := 2 * incrementEntry k
  let formula := (2 ^ 33 * 440) ^ 1200 * 2 ^ (5100 + k)
  decide (((e - 1) * 48000) ^ 1200 < formula) && decide (formula < ((e + 1) * 48000) ^ 1200)

theorem nearestEntry_below_300 : ∀ k < 300, nearestEntry k = true := by decide +kernel
theorem nearestEntry_300_to_600 : ∀ k < 300, nearestEntry (300 + k) = true := by decide +kernel
theorem nearestEntry_600_to_900 : ∀ k < 300, nearestEntry (600 + k) = true := by decide +kernel
theorem nearestEntry_900_to_1200 : ∀ k < 301, nearestEntry (900 + k) = true := by decide +kernel

/-- Every entry of the table is the whole number nearest to the formula of R90. -/
theorem incrementEntry_nearest (k : Nat) (h : k ≤ 1200) : nearestEntry k = true := by
  rcases Nat.lt_or_ge k 300 with h1 | h1
  · exact nearestEntry_below_300 k h1
  rcases Nat.lt_or_ge k 600 with h2 | h2
  · exact (Nat.add_sub_cancel' h1) ▸ nearestEntry_300_to_600 (k - 300) (by omega)
  rcases Nat.lt_or_ge k 900 with h3 | h3
  · exact (Nat.add_sub_cancel' h2) ▸ nearestEntry_600_to_900 (k - 600) (by omega)
  · exact (Nat.add_sub_cancel' h3) ▸ nearestEntry_900_to_1200 (k - 900) (by omega)

theorem rise_below_600 : ∀ k < 600, incrementEntry k < incrementEntry (k + 1) := by decide +kernel
theorem rise_from_600 : ∀ k < 600, incrementEntry (600 + k) < incrementEntry (600 + k + 1) := by decide +kernel

/-- The table rises (R90). -/
theorem incrementEntry_lt_succ (k : Nat) (h : k < 1200) : incrementEntry k < incrementEntry (k + 1) := by
  rcases Nat.lt_or_ge k 600 with h1 | h1
  · exact rise_below_600 k h1
  · have := rise_from_600 (k - 600) (by omega)
    rwa [Nat.add_sub_cancel' h1] at this

end Sys2Proof.Machine
end

