-- ==== Sys2Proof/Laws/Notes.lean ====
section
/-!
SUPPORT. The end of a note and the lead-note change, each said once: what the release of every voice leaves (R59, R60, R117), and what a
legato change does before the ranks plan (R56, R116).
-/

namespace Sys2Proof.Machine

/-! ### Records an admission keeps -/

theorem mem_replaceRecord_of_not {p : Record → Bool} {r : Record} {q : List Queued} {y : Queued} (hy : y ∈ q)
    (hp : p y.record = false) : y ∈ replaceRecord p r q := by
  induction q with
  | nil => cases hy
  | cons x xs ih =>
    unfold replaceRecord
    rcases List.mem_cons.1 hy with rfl | hy
    · simp [hp]
    · split
      · exact List.mem_cons_of_mem _ hy
      · exact List.mem_cons_of_mem _ (ih hy)

theorem mem_evictHeld_of_not {q : List Queued} {y : Queued} (hy : y ∈ q) (hh : y.record.isHeld = false) : y ∈ evictHeld q := by
  induction q with
  | nil => cases hy
  | cons x xs ih =>
    unfold evictHeld
    rcases List.mem_cons.1 hy with rfl | hy
    · simp [hh]
    · split
      · exact hy
      · exact List.mem_cons_of_mem _ (ih hy)

/-- An admitted record takes the place of one that `p` accepts or of a HELD, and of nothing else (R146 to R148). -/
theorem Line.mem_replaceOrJoin_of_not {l : Line} {p : Record → Bool} {r : Record} {y : Queued} (hy : y ∈ l.queue)
    (hp : p y.record = false) (hh : y.record.isHeld = false) : y ∈ (l.replaceOrJoin p r).queue := by
  unfold Line.replaceOrJoin Line.join
  split
  · exact mem_replaceRecord_of_not hy hp
  · split
    · exact mem_joinClass.2 (.inr hy)
    · exact mem_joinClass.2 (.inr (mem_evictHeld_of_not hy hh))

/-! ### Releases -/

/-- The placement for one tag keeps the NOTE_ENDs queued (R60). -/
theorem noteEnd_kept_placeNoteEnd {t u : Fin 8} {s : State} (h : ∃ y ∈ s.line.queue, y.record = .noteEnd u) :
    ∃ y ∈ (placeNoteEnd t s).line.queue, y.record = .noteEnd u := by
  obtain ⟨y, hy, hr⟩ := h
  have hk : y ∈ s.line.queue.filter fun y => !y.record.isNoteStart t := by
    rw [List.mem_filter]; exact ⟨hy, by rw [hr]; rfl⟩
  rw [placeNoteEnd_eq]
  dsimp only
  split
  · unfold Line.enqueue
    split
    · by_cases hut : u = t
      · exact ⟨_, Line.fresh_mem_replaceOrJoin .., by rw [hut]; rfl⟩
      · exact ⟨y, Line.mem_replaceOrJoin_of_not hk (by rw [hr]; simpa [Record.isNote] using hut) (by rw [hr]; rfl), hr⟩
    · exact ⟨y, hk, hr⟩
  · exact ⟨y, hk, hr⟩

/-- The admission of a NOTE record moves the queue and the HELD dropped counter (R145 to R148). -/
theorem Line.enqueue_noteEnd_frame (l : Line) (t : Fin 8) :
    l.enqueue (.noteEnd t) = { l with
      queue := (l.enqueue (.noteEnd t)).queue, heldDropped := (l.enqueue (.noteEnd t)).heldDropped } := by
  unfold Line.enqueue
  split
  · dsimp only
    unfold Line.replaceOrJoin Line.join
    split
    · rfl
    · split <;> rfl
  · rfl

/-- A placement moves the queue and the HELD dropped counter. -/
theorem placeNoteEnd_frame (t : Fin 8) (s : State) :
    placeNoteEnd t s = { s with line := { s.line with
      queue := (placeNoteEnd t s).line.queue, heldDropped := (placeNoteEnd t s).line.heldDropped } } := by
  by_cases h : (s.slot t).announced = true ∨ s.line.announces t = true
  · rw [placeNoteEnd_eq]
    dsimp only
    rw [if_pos h, Line.enqueue_noteEnd_frame]
  · rw [placeNoteEnd_eq]
    dsimp only
    rw [if_neg h]

/-- A release moves the slots, the queue and the HELD dropped counter. -/
theorem releaseSlot_frame (mode : VoiceState) (t : Fin 8) (s : State) :
    releaseSlot mode t s = { s with
      slots := (releaseSlot mode t s).slots
      line := { s.line with queue := (releaseSlot mode t s).line.queue, heldDropped := (releaseSlot mode t s).line.heldDropped } } := by
  cases hv : s.voice t with
  | none => rw [releaseSlot_of_not_active (by simp [hv])]
  | some v =>
    by_cases ha : v.active = true
    · rw [releaseSlot_of_active hv ha, placeNoteEnd_slots]
      exact placeNoteEnd_frame t (setVoice t (some { v with state := mode }) s)
    · rw [releaseSlot_of_not_active (by simpa [hv] using ha)]

/-- A voice released is not released again. -/
theorem released_not_active (v : Voice) : (if v.active then { v with state := .releasingNormal } else v : Voice).active = false := by
  split
  · rfl
  · next h => simpa using h

/-- The releases of the slots of a list, in its order. -/
theorem releaseList_spec (l : List (Fin 8)) (s : State) :
    let t := l.foldl (fun s u => releaseSlot .releasingNormal u s) s
    (∀ u, t.slot u = if u ∈ l then
      { s.slot u with voice := (s.voice u).map fun v => if v.active then { v with state := .releasingNormal } else v }
      else s.slot u) ∧
    t = { s with slots := t.slots, line := { s.line with queue := t.line.queue, heldDropped := t.line.heldDropped } } ∧
    (∀ y ∈ t.line.queue, y ∈ s.line.queue ∨ ∃ u, y = Queued.fresh (.noteEnd u)) ∧
    (∀ u, (∃ y ∈ s.line.queue, y.record = .noteEnd u) → ∃ y ∈ t.line.queue, y.record = .noteEnd u) ∧
    (∀ u ∈ l, ∀ v, s.voice u = some v → v.active = true →
      (∀ y ∈ t.line.queue, y.record.isNoteStart u = false) ∧
      (s.line.state = .active → (s.slot u).announced = true ∨ s.line.announces u = true →
        ∃ y ∈ t.line.queue, y.record = .noteEnd u)) ∧
    (s.line.state ≠ .active → t.line.queue = s.line.queue.filter fun y =>
      !(l.any fun u => y.record.isNoteStart u && (s.voice u).any Voice.active)) := by
  induction l generalizing s with
  | nil => simp; exact fun y h => .inl h
  | cons a l ih =>
    intro t
    obtain ⟨i1, i2, i3, i4, i5, i6⟩ := ih (releaseSlot .releasingNormal a s)
    change (∀ u, t.slot u = _) at i1
    change t = _ at i2
    change (∀ y ∈ t.line.queue, _) at i3
    change (∀ u, _ → ∃ y ∈ t.line.queue, _) at i4
    change (∀ u ∈ l, ∀ v, _ → _ → (∀ y ∈ t.line.queue, _) ∧ (_ → _ → ∃ y ∈ t.line.queue, _)) at i5
    change (_ → t.line.queue = _) at i6
    have hf := releaseSlot_frame .releasingNormal a s
    have hst : (releaseSlot .releasingNormal a s).line.state = s.line.state := by rw [hf]
    have huw : (releaseSlot .releasingNormal a s).line.underWay = s.line.underWay := by rw [hf]
    have han : ∀ u, (releaseSlot .releasingNormal a s).line.announces u = s.line.announces u := by
      intro u; unfold Line.announces; rw [huw]
    have hmem : ∀ y ∈ (releaseSlot .releasingNormal a s).line.queue, y ∈ s.line.queue ∨ ∃ u, y = Queued.fresh (.noteEnd u) := by
      intro y hy
      cases hv : s.voice a with
      | none => rw [releaseSlot_of_not_active (by simp [hv])] at hy; exact .inl hy
      | some v =>
        by_cases ha : v.active = true
        · rw [releaseSlot_of_active hv ha] at hy
          rcases (mem_placeNoteEnd hy).2 with h | h
          · exact .inr ⟨a, h⟩
          · exact .inl h
        · rw [releaseSlot_of_not_active (by simpa [hv] using ha)] at hy; exact .inl hy
    have hend : ∀ u, (∃ y ∈ s.line.queue, y.record = .noteEnd u) →
        ∃ y ∈ (releaseSlot .releasingNormal a s).line.queue, y.record = .noteEnd u := by
      intro u h
      cases hv : s.voice a with
      | none => rw [releaseSlot_of_not_active (by simp [hv])]; exact h
      | some v =>
        by_cases ha : v.active = true
        · rw [releaseSlot_of_active hv ha]; exact noteEnd_kept_placeNoteEnd h
        · rw [releaseSlot_of_not_active (by simpa [hv] using ha)]; exact h
    refine ⟨?_, ?_, ?_, fun u h => i4 u (hend u h), ?_, ?_⟩
    · intro u
      rw [i1 u, releaseSlot_voice, releaseSlot_slot]
      by_cases hu : u = a
      · subst hu
        simp only [if_true, List.mem_cons, true_or]
        by_cases hl : u ∈ l
        · rw [if_pos hl]
          cases s.voice u with
          | none => rfl
          | some v => simp [released_not_active]
        · rw [if_neg hl]
      · simp [hu]
    · rw [i2, hf]
    · intro y hy
      rcases i3 y hy with h | h
      · exact hmem y h
      · exact .inr h
    · intro u hu v hv hva
      by_cases hua : u = a
      · subst hua
        have hr := releaseSlot_of_active (mode := .releasingNormal) hv hva
        refine ⟨fun y hy => ?_, fun hs hann => i4 u ?_⟩
        · rcases i3 y hy with h | ⟨w, rfl⟩
          · rw [hr] at h; exact (mem_placeNoteEnd h).1
          · rfl
        · rw [hr]
          exact ⟨_, noteEnd_mem_placeNoteEnd (s := setVoice u _ s) hs (by rw [slot_setVoice]; simpa using hann), rfl⟩
      · have hl : u ∈ l := (List.mem_cons.1 hu).resolve_left hua
        obtain ⟨j1, j2⟩ := i5 u hl v (by rw [releaseSlot_voice, if_neg hua]; exact hv) hva
        exact ⟨j1, fun hs hann => j2 (hst.trans hs) (by rw [releaseSlot_announced, han]; exact hann)⟩
    · intro hs
      rw [i6 (by rw [hst]; exact hs)]
      have hq : (releaseSlot .releasingNormal a s).line.queue =
          s.line.queue.filter fun y => !(y.record.isNoteStart a && (s.voice a).any Voice.active) := by
        cases hv : s.voice a with
        | none => rw [releaseSlot_of_not_active (by simp [hv])]; simp
        | some v =>
          by_cases ha : v.active = true
          · rw [releaseSlot_of_active hv ha, placeNoteEnd_eq]
            dsimp only
            have hne : ∀ r, ({ s.line with queue := s.line.queue.filter fun y => !y.record.isNoteStart a } : Line).enqueue r =
                { s.line with queue := s.line.queue.filter fun y => !y.record.isNoteStart a } := by
              intro r; unfold Line.enqueue; rw [if_neg hs]
            simp only [setVoice_line, hne, ite_self]
            simp [ha]
          · rw [releaseSlot_of_not_active (by simpa [hv] using ha)]; simp [ha]
      rw [hq, List.filter_filter]
      congr 1
      funext y
      have hw : ∀ w, w ≠ a → (releaseSlot .releasingNormal a s).voice w = s.voice w := fun w h => by
        rw [releaseSlot_voice, if_neg h]
      have hsame : (l.any fun u => y.record.isNoteStart u && ((releaseSlot .releasingNormal a s).voice u).any Voice.active) =
          (l.any fun u => decide (u ≠ a) && (y.record.isNoteStart u && (s.voice u).any Voice.active)) := by
        congr 1; funext w
        by_cases h : w = a
        · subst h
          rw [releaseSlot_voice, if_pos rfl]
          cases s.voice w with
          | none => simp
          | some v => simp [released_not_active]
        · rw [hw w h]; simp [h]
      rw [hsame, List.any_cons]
      cases hA : (y.record.isNoteStart a && (s.voice a).any Voice.active)
      · have : ∀ w ∈ l, (decide (w ≠ a) && (y.record.isNoteStart w && (s.voice w).any Voice.active)) =
            (y.record.isNoteStart w && (s.voice w).any Voice.active) := by
          intro w _
          by_cases h : w = a
          · subst h; simp [hA]
          · simp [h]
        have h2 : (l.any fun w => decide (w ≠ a) && (y.record.isNoteStart w && (s.voice w).any Voice.active)) =
            (l.any fun w => y.record.isNoteStart w && (s.voice w).any Voice.active) := by
          rw [Bool.eq_iff_iff, List.any_eq_true, List.any_eq_true]
          exact ⟨fun ⟨w, hw, h⟩ => ⟨w, hw, this w hw ▸ h⟩, fun ⟨w, hw, h⟩ => ⟨w, hw, (this w hw).symm ▸ h⟩⟩
        rw [h2]; simp
      · simp

/-- Work that takes every rank's CLAIM out of the queue and changes each rank's record by itself, rank by rank (R116, R117). -/
theorem clearClaims_eq (k : Rank → Rank) (g : Fin 3 → State → State)
    (hg : ∀ r s, g r s = setRank r (k (s.rank r)) (removeRecords (Record.isClaim r) s)) (s : State) :
    allRanks.foldl (fun s r => g r s) s = { s with
      harmony := { s.harmony with ranks := ⟨k (s.rank 0), k (s.rank 1), k (s.rank 2)⟩ }
      line := { s.line with queue := s.line.queue.filter fun y => !(allRanks.any fun r => y.record.isClaim r) } } := by
  have h : ((s.line.queue.filter fun y => !y.record.isClaim 0).filter fun y => !y.record.isClaim 1).filter
      (fun y => !y.record.isClaim 2) = s.line.queue.filter fun y => !(allRanks.any fun r => y.record.isClaim r) := by
    rw [List.filter_filter, List.filter_filter]
    congr 1; funext y
    simp only [allRanks, List.any_cons, List.any_nil, Bool.or_false]
    cases y.record.isClaim 0 <;> cases y.record.isClaim 1 <;> cases y.record.isClaim 2 <;> rfl
  rw [← h]
  simp only [allRanks, List.foldl_cons, List.foldl_nil, hg, setRank, removeRecords, Line.remove, State.rank, Three.set, Three.get]
  rfl

/-- The idling of every rank: IDLE with nothing kept, the CLAIMs out of the queue, nothing else (R117). -/
theorem idleAll_eq (s : State) :
    let k := fun x : Rank => { x with
      stage := .idle, claim := none, position := 0, refused := [], slot := none, localDue := false }
    allRanks.foldl (fun s r => idleRank r s) s = { s with
      harmony := { s.harmony with ranks := ⟨k (s.rank 0), k (s.rank 1), k (s.rank 2)⟩ }
      line := { s.line with queue := s.line.queue.filter fun y => !(allRanks.any fun r => y.record.isClaim r) } } :=
  clearClaims_eq (fun x => { x with 
    stage := .idle, claim := none, position := 0, refused := [], slot := none, localDue := false }) idleRank (fun _ _ => rfl) s

/-- The abandoning of every claim: IDLE with the slot kept, the CLAIMs out of the queue, nothing else (R116). -/
theorem abandonAll_eq (s : State) :
    let k := fun x : Rank => { x with stage := .idle, claim := none, position := 0, refused := [], localDue := false }
    allRanks.foldl (fun s r => abandonClaim r s) s = { s with
      harmony := { s.harmony with ranks := ⟨k (s.rank 0), k (s.rank 1), k (s.rank 2)⟩ }
      line := { s.line with queue := s.line.queue.filter fun y => !(allRanks.any fun r => y.record.isClaim r) } } :=
  clearClaims_eq (fun x => { x with 
    stage := .idle, claim := none, position := 0, refused := [], localDue := false }) abandonClaim (fun _ _ => rfl) s

/-- The release of every voice with every rank (R59, R60, R62, R117): what it leaves, and all else as it was. -/
theorem releaseAll_releasedTo (s : State) :
    s.ReleasedTo (releaseAll s) ∧
      releaseAll s = { s with
        slots := (releaseAll s).slots, harmony := (releaseAll s).harmony, line := (releaseAll s).line } := by
  obtain ⟨h1, h2, h3, h4, h5, h6⟩ := releaseList_spec allEight s
  have k1 := idleAll_eq (releaseSlots s)
  change ∀ u, (releaseSlots s).slot u = _ at h1
  change releaseSlots s = { s with slots := (releaseSlots s).slots, line := { s.line with
    queue := (releaseSlots s).line.queue, heldDropped := (releaseSlots s).line.heldDropped } } at h2
  change ∀ u, _ → ∃ y ∈ (releaseSlots s).line.queue, _ at h4
  change ∀ u ∈ allEight, ∀ v, _ → _ → (∀ y ∈ (releaseSlots s).line.queue, _) ∧
    (_ → _ → ∃ y ∈ (releaseSlots s).line.queue, _) at h5
  change _ → (releaseSlots s).line.queue = _ at h6
  change releaseAll s = _ at k1
  have hq : (releaseAll s).line.queue =
      (releaseSlots s).line.queue.filter fun y => !(allRanks.any fun r => y.record.isClaim r) := by rw [k1]
  have hslot : ∀ u, (releaseAll s).slot u = { s.slot u with
      voice := (s.voice u).map fun v => if v.active then { v with state := .releasingNormal } else v } := by
    intro u
    have : (releaseAll s).slot u = (releaseSlots s).slot u := by rw [k1]; rfl
    rw [this, h1 u, if_pos (by fin_cases u <;> decide)]
  have hvoice : ∀ u, (releaseAll s).voice u =
      (s.voice u).map fun v => if v.active then { v with state := .releasingNormal } else v := by
    intro u; unfold State.voice; rw [hslot]; rfl
  have hranks : (releaseSlots s).harmony = s.harmony := by rw [h2]
  refine ⟨⟨?_, ?_, ?_, ?_, ?_, ?_⟩, ?_⟩
  · intro u
    refine ⟨by rw [hslot, hvoice], fun h => by rw [hvoice, h]; rfl, fun v hv hr => ?_, fun v hv hr => ⟨?_, ?_, ?_⟩⟩
    · rw [hvoice, hv]; simp [Voice.active, hr]
    · rw [hvoice, hv]; simp [Voice.active, hr]
    · intro y hy
      rw [hq, List.mem_filter] at hy
      exact (h5 u (by fin_cases u <;> decide) v hv (by simp [Voice.active, hr])).1 y hy.1
    · intro ha hb
      obtain ⟨y, hy, he⟩ := (h5 u (by fin_cases u <;> decide) v hv (by simp [Voice.active, hr])).2 ha hb
      refine ⟨y, ?_, he⟩
      rw [hq, List.mem_filter]
      exact ⟨hy, by rw [he]; rfl⟩
  · intro r; rw [k1]; fin_cases r <;> exact ⟨rfl, rfl, rfl, rfl, rfl⟩
  · intro y hy r
    rw [hq, List.mem_filter] at hy
    have := hy.2
    simp only [Bool.not_eq_true', List.any_eq_false] at this
    simpa using this r (by fin_cases r <;> decide)
  · intro hs
    rw [hq, h6 hs, List.filter_filter]
  · rw [k1, hranks]
  · rw [k1, h2]
  · rw [k1, h2]

/-! ### The lead-note change -/

/-- A lead-note change under a SOUNDING lead: the legato change, after which every enabled rank plans (R13, R56, R116). -/
theorem deliverLeadChange_legatoTo {s : State} {u : Fin 8} {v : Voice} (ha : s.breath.articulation = .sounding)
    (hu : s.leadTag = some u) (hv : s.voice u = some v) :
    ∃ t, s.LegatoTo t u v s.resolver.leadNote ∧ deliverLeadChange s = t.planned := by
  have k1 := abandonAll_eq (legato u s)
  have hl : legato u s = { s with
      slots := s.slots.set u { s.slot u with
        voice := some { v with note := s.resolver.leadNote, baseTarget := 1000 * s.resolver.leadNote } }
      line := s.line.enqueue (.noteStart u s.resolver.leadNote v.role.onLine s.breath.levelClass) } := by
    unfold legato queueNoteStart
    rw [hv]
    dsimp only
    rw [voice_setVoice, if_pos rfl]
    rfl
  refine ⟨allRanks.foldl (fun s r => abandonClaim r s) (legato u s), ⟨?_, ?_, ?_, ?_, ?_⟩, ?_⟩
  · rw [k1, hl]
  · intro r
    refine ⟨?_, ?_⟩
    · have hlead : (allRanks.foldl (fun s r => abandonClaim r s) (legato u s)).leadVoice =
          some { v with note := s.resolver.leadNote, baseTarget := 1000 * s.resolver.leadNote } := by
        have hvoice : ∀ w, (allRanks.foldl (fun s r => abandonClaim r s) (legato u s)).voice w = if w = u then
            some { v with note := s.resolver.leadNote, baseTarget := 1000 * s.resolver.leadNote } else s.voice w := by
          intro w; rw [k1, hl]; exact voice_setVoice s u w _
        unfold State.leadVoice
        have htag : (allRanks.foldl (fun s r => abandonClaim r s) (legato u s)).leadTag = some u := by
          rw [← hu]
          unfold State.leadTag
          congr 1; funext w
          rw [hvoice w]
          by_cases hw : w = u
          · rw [if_pos hw, hw, hv]; rfl
          · rw [if_neg hw]
        rw [htag]
        dsimp only
        rw [hvoice, if_pos rfl]
      have hold : s.leadVoice = some v := by unfold State.leadVoice; rw [hu]; exact hv
      unfold State.enabled
      rw [hlead, hold, k1, hl]
      rfl
    · rw [k1, hl]; fin_cases r <;> rfl
  · intro hs
    rw [k1, hl]
    exact ⟨_, List.mem_filter.2 ⟨Line.fresh_mem_admit hs rfl rfl, rfl⟩, rfl⟩
  · rw [k1, hl]
  · rw [k1, hl]
  · unfold deliverLeadChange replanAll planAll State.planned
    rw [if_pos ha, hu]
    rfl

/-- A lead-note change moves nothing where the articulation is not SOUNDING or no lead slot is (R13, R56, R116). -/
theorem deliverLeadChange_of_no_lead {s : State} (h : s.breath.articulation ≠ .sounding ∨ s.leadTag = none) :
    deliverLeadChange s = s := by
  unfold deliverLeadChange
  rcases h with h | h
  · rw [if_neg h]
  · rw [h]; split <;> rfl

/-- A recomputation sets the lead note and nothing else of the resolver (R12). -/
theorem recomputeLead_resolver (s : State) :
    (recomputeLead s).resolver = { s.resolver with leadNote := s.resolver.computeLead } := by
  unfold recomputeLead
  dsimp only
  split
  · next h => rw [h]
  · exact (voiceWork_deliverLeadChange _).resolver

/-- A recomputation that gives the same note, or is not delivered to a SOUNDING lead, moves the lead note alone (R12, R13). -/
theorem recomputeLead_of_not_delivered {s : State} (h : s.breath.articulation ≠ .sounding ∨ s.leadTag = none ∨
    s.resolver.computeLead = s.resolver.leadNote) :
    recomputeLead s = { s with resolver := { s.resolver with leadNote := s.resolver.computeLead } } := by
  unfold recomputeLead
  dsimp only
  split
  · next h => rw [h]
  · next hn =>
    apply deliverLeadChange_of_no_lead
    rcases h with h | h | h
    · exact .inl h
    · exact .inr h
    · exact absurd h hn

/-- A recomputation that changes the lead note under a SOUNDING lead is a legato change (R12, R13, R56, R116). -/
theorem recomputeLead_legatoTo {s : State} {u : Fin 8} {v : Voice} (ha : s.breath.articulation = .sounding)
    (hu : s.leadTag = some u) (hv : s.voice u = some v) (hn : s.resolver.computeLead ≠ s.resolver.leadNote) :
    ∃ t, ({ s with resolver := { s.resolver with leadNote := s.resolver.computeLead } } : State).LegatoTo t u v
        s.resolver.computeLead ∧ recomputeLead s = t.planned := by
  unfold recomputeLead
  dsimp only
  rw [if_neg hn]
  exact deliverLeadChange_legatoTo (s := { s with resolver := { s.resolver with leadNote := s.resolver.computeLead } }) ha hu hv

end Sys2Proof.Machine
end

