-- ==== Sys2Proof/Laws/Settle.lean ====
section
/-!
SUPPORT. The steps that come due (assumption 1): with nothing due each of them, and so the whole of settle, leaves the state.
-/

namespace Sys2Proof.Machine

variable {s : State}

theorem foldl_fixed {α β : Type} (f : β → α → β) (x : β) (l : List α) (h : ∀ a ∈ l, f x a = x) : l.foldl f x = x := by
  induction l with
  | nil => rfl
  | cons a as ih =>
    rw [List.foldl_cons, h a List.mem_cons_self]
    exact ih fun b hb => h b (List.mem_cons_of_mem _ hb)

theorem settleFrame_of_quiet (h : s.FrameQuiet) : settleFrame s = s := by
  obtain ⟨hc, hf, ho⟩ := h
  have h1 : captureComplete s = s := by
    unfold captureComplete
    split
    · rfl
    · next hb => rw [if_neg]; have := hc hb; omega
  have h2 : fireAll s = s := foldl_fixed _ s _ fun d _ => by
    unfold fireDetector; rw [hf d]
  have h3 : onsetEnd s = s := by
    unfold onsetEnd
    rw [if_neg]
    rintro ⟨ha, hb⟩
    rw [ho ha] at hb; cases hb
  unfold settleFrame
  rw [h1, h2, h3]

theorem settleRanks_of_quiet (h : ∀ r : Fin 3, s.RankQuiet r) : settleRanks s = s := by
  have h1 : allRanks.foldl (fun s r => claimConfirm r s) s = s := foldl_fixed _ s _ fun r _ => by
    unfold claimConfirm
    rw [if_neg]
    rintro ⟨ha, hb⟩
    have := (h r).1 ha; omega
  have h2 : allRanks.foldl (fun s r => localResolution r s) s = s := foldl_fixed _ s _ fun r _ => by
    unfold localResolution
    rw [if_neg]
    rintro ⟨hl, hd⟩
    rw [(h r).2.2 hl] at hd; cases hd
  have h3 : allRanks.foldl (fun s r => staleClaim r s) s = s := foldl_fixed _ s _ fun r _ => by
    unfold staleClaim
    rw [if_neg]
    rintro ⟨ha, hb⟩
    have := (h r).2.1 ha; omega
  simp only [settleRanks, h1, h2, h3]

theorem settleBoundary_of_quiet (h : s.BoundaryQuiet) : settleBoundary s = s := by
  obtain ⟨hp, hs, hm, ⟨d1, d2, d3, d4⟩, hr, hj, hl, ha⟩ := h
  have h1 : rootSettled s = s := by
    unfold rootSettled State.rootDue
    rw [if_neg]
    simpa using hp
  have h2 : sensorLost s = s := by
    unfold sensorLost
    rw [if_neg]
    rintro ⟨k, l⟩
    have := hs k; omega
  have h3 : allEight.foldl (fun s st => stationExpiry st s) s = s := foldl_fixed _ s _ fun st _ => by
    unfold stationExpiry
    rw [if_neg]
    rintro ⟨k, l⟩
    have := hm st k; omega
  have h4 : takeDue s = s := by simp [takeDue, takeTranspose, takeTuning, takeKey, takeRanks, d1, d2, d3, d4]
  have h5 : joiningComplete s = s := by
    unfold joiningComplete
    rw [if_neg]
    rintro ⟨k, l⟩
    have := hj k; omega
  have h6 : decayExpiry s = s := by
    unfold decayExpiry
    rw [if_neg]
    rintro ⟨k, l⟩
    have := (hl k).1; omega
  have h7 : listenOnlyEnd s = s := by
    unfold listenOnlyEnd
    rw [if_neg]
    rintro ⟨k, l⟩
    exact (hl k).2 l
  have h8 : rosterExpiry s = s := by
    unfold rosterExpiry
    rw [if_neg]
    unfold Line.rosterDue
    split
    · next n hn =>
      simp only [Bool.and_eq_true, decide_eq_true_eq, not_and]
      intro k
      have := ha k n hn; omega
    · simp
  simp only [settleBoundary, h1, h2, h3, h4, settleRanks_of_quiet hr, h5, h6, h7, h8]

theorem settlePanel_of_quiet (h : s.PanelQuiet) : settlePanel s = s := by
  obtain ⟨hh, hr⟩ := h
  have h1 : ∀ n, processMessages n s = s := by
    intro n
    cases n with
    | zero => rfl
    | succ n => unfold processMessages; rw [hh]
  have h2 : placeSection s = s := by
    unfold placeSection
    split
    · rfl
    · next rep hrep =>
      rw [if_neg]
      rintro ⟨hl, hw⟩
      rcases hr with hr | hr | hr
      · rw [hrep] at hr; cases hr
      · omega
      · rw [hw] at hr; cases hr
  have h3 : ∀ n, placeSections n s = s := by
    intro n
    induction n with
    | zero => rfl
    | succ n ih => unfold placeSections; rw [h2]; exact ih
  unfold settlePanel
  rw [h1, h3]

/-- With nothing due there is nothing to complete. -/
theorem settle_of_quiet (h : s.Quiet) : settle s = s := by
  unfold settle
  split
  · rfl
  · rw [settleFrame_of_quiet h.1, settleBoundary_of_quiet h.2.1, settlePanel_of_quiet h.2.2]

/-- A command from outside in a running part with nothing due: its own work, and nothing before it. -/
theorem whenSettled_of_quiet (hr : s.Running) (h : s.Quiet) (f : State → State) : whenSettled s f = .next (f s) := by
  simp only [whenSettled, unlessHeld, settle_of_quiet h, State.Running] at *
  rw [hr]; rfl

end Sys2Proof.Machine
end

