-- ==== Sys2Proof/WellFormed.lean ====
section
/-!
DEFINITION. The commands whose operands the part's ports can carry: a flash of at most 2^24 bytes (three address bytes, spec
11.5), line frames of 2 to 259 bytes (header, length, at most 255 payload bytes, CRC, spec 11.2), and at most as many bits of
a broken frame as such a frame has (R194).
-/

namespace Sys2Proof

/-- A flash the three address bytes of the image can reach. -/
def flashFits (flash : List Byte) : Bool := decide (flash.length ≤ 16777216)

/-- A frame of at least a header and a length, and at most the longest the length byte can give. -/
def frameFits (frame : List Byte) : Bool := decide (2 ≤ frame.length) && decide (frame.length ≤ 259)

/-- The bits of the longest frame after its start bit: nine per byte but for the last separator. -/
def bitsFit (bits : List Bool) : Bool := decide (bits.length ≤ 2330)

/-- A command the part's ports can carry. -/
def Instr.wellFormed : Instr → Bool
  | .imageLoadFault flash => flashFits flash
  | .imageLoadComplete flash => flashFits flash
  | .programReadComplete flash => flashFits flash
  | .defaultProgramReadStart flash => flashFits flash
  | .lineFrameBroken bits => bitsFit bits
  | .frameDiscarded frame => frameFits frame
  | .duplicateFrame frame => frameFits frame
  | .peerNoteStart frame => frameFits frame
  | .peerNoteEnd frame => frameFits frame
  | .peerRoster frame => frameFits frame
  | .peerClaim frame => frameFits frame
  | .peerHeld frame => frameFits frame
  | _ => true

end Sys2Proof
end

