-- ==== Sys2Proof/Tests/Slice0.lean ====
section
/-!
SUPPORT. Tests of single commands on small states, with results worked out in spec/ or by hand from its rules, and for every statement
with hypotheses a witness: concrete states and operands that meet them.
-/

set_option maxRecDepth 10000
set_option Elab.async false

namespace Sys2Proof.Tests

open Sys2Proof.Machine

/-! ### Small states -/

/-- The state a command leads to. -/
def after (c : Instr) (s : State) : State :=
  match exec c s with
  | .next t => t
  | _ => s

/-- The key set of these keys. -/
def keys (ks : List Nat) : BitVec 24 := BitVec.ofNat 24 (ks.map fun k => 2 ^ k).sum

/-- The factory program 0 (spec 11.6). -/
def factoryProgram : Program :=
  { softWave := 0, brightWave := 1, depth := 16384, settle := 3, onsetFrames := 2, attack := 3000, releaseRate := 2500,
    portamento := 0, strength := 16, bendGain := 32, deadband := 40, rankSet := 3,
    rankPrograms := ⟨⟨16384, [4, 3]⟩, ⟨12288, [-5, -8]⟩, ⟨0, []⟩⟩, slew := 10, cap := 4096 }

/-- The example chart of spec 01, 1.3. -/
def exampleChart : List ChartEntry :=
  [⟨keys [0, 1, 2, 3, 4, 5], keys [0, 1, 2, 3, 4, 5], 62⟩, ⟨keys [0, 1, 2, 3, 4, 5], keys [0, 1, 2, 3, 4], 64⟩,
    ⟨keys [0, 1, 2, 3, 4, 5], keys [0, 1, 2, 3], 65⟩, ⟨keys [0, 1, 2, 3, 7], keys [0, 1, 2, 7], 66⟩,
    ⟨keys [0, 1, 2, 3], keys [0, 1, 2], 67⟩, ⟨keys [0, 1, 2], keys [0, 1], 69⟩, ⟨keys [0, 1, 2], keys [0], 71⟩,
    ⟨keys [0, 1, 2], keys [], 72⟩]

/-- The factory breath curve (spec 11.6). -/
def factoryCurve : List Nat :=
  [0, 300, 800, 1500, 2400, 3400, 4500, 5600, 6700, 7850, 9000, 10200, 11400, 12600, 13800, 15000, 16200, 17400, 18600,
    19800, 21000, 22200, 23400, 24600, 25800, 27000, 28100, 29100, 30000, 30800, 31500, 32100, 32767]

/-- The detectors of the joined octave gesture (spec 03, worked figure). -/
def exampleDetectors : Four (Option DetectorDef) :=
  ⟨some ⟨.keys (keys [22, 23]) (keys [22, 23]), false, 3, .octaveUp⟩, some ⟨.breath 0 40, false, 5, .report⟩,
    some ⟨.rise 600 4095, false, 1, .report⟩, some ⟨.lip 300 3800, true, 50, .harmonyToggle⟩⟩

/-- An image with the factory values but for the example chart and detectors, and no wave samples. -/
def image : Image :=
  { lineEnable := true, keyMask := keys [14], octaveKeys := ⟨some 20, some 21, none, none⟩,
    octaveTable := [0, 1, -1, 2, 0, 0, 0, 0, 0, 0, 0, 0, 0, 0, 0, 0], chart := exampleChart, tOn := 300, tOff := 200,
    lipCentre := 2048, curve := factoryCurve, just := [0, 117, 39, 156, -137, -20, -98, 20, 137, -156, 176, -117],
    detectorDefs := exampleDetectors, join01 := .both, join23 := .separate, masterGain := 2048, defaultKey := 0,
    defaultScale := 4095, defaultProgram := 0, directory := [0, 43], waves := [] }

/-- Station 1 with the image loaded, bank A READY with program 0, a baseline of 212 and the line ACTIVE. -/
def ready : State :=
  { State.reset with
    power := { resetHeld := false, station := 1 }
    loader := { image := .loaded image, reading := none, startUpDone := true }
    breath := { Breath.reset with baseline := some 212 }
    banks := { a := .ready { number := 0, params := factoryProgram }, b := .empty, selector := .bankA }
    line := { Line.reset with state := .active } }

/-- The eight bytes of a sensor frame with a good check (spec 11.1). -/
def burst (seq : Nat) (ks : BitVec 24) (breath lip : Nat) : List Byte :=
  let body := [seq, ks.toNat % 256, ks.toNat / 256 % 256, ks.toNat / 65536, breath / 16, breath % 16 * 16 + lip / 256,
    lip % 256]
  body.map (BitVec.ofNat 8) ++ [BitVec.ofNat 8 (255 + 1792 - body.sum % 256)]


/-! ### Words and formats -/

/-- R196: the nine digits give 10,673. -/
theorem test_crc_check_figure :
    crc16 ([49, 50, 51, 52, 53, 54, 55, 56, 57].map (BitVec.ofNat 8)) = 10673 := by decide +kernel

/-- R12: the sums of the table fold to 67, 76, 120, 127, 0, 7, 125. -/
theorem test_fold_table : [67, 76, 144, 163, -48, -5, 137].map fold = [67, 76, 120, 127, 0, 7, 125] := by
  decide +kernel

/-- R85: the seven rows of the table. -/
theorem test_just_rounding :
    [80, -548, 936, -936, 312, -312, -2192].map (divHalfAway · 16) = [5, -34, 59, -59, 20, -20, -137] := by decide +kernel

/-- Spec 05, worked case: the increments of 69,005 and 69,000. -/
theorem test_increment_figures : [69005, 69000].map incrementOf = [39381907, 39370533] := by decide +kernel

/-- Spec 02, worked figure: the bends of the five rows. -/
theorem test_bend_rows :
    [bendOf 1800 2048 32 40, bendOf 2300 2048 200 40, bendOf 2080 2048 200 40, bendOf 4095 2048 255 0,
      bendOf 0 2048 100 100] = [-104, 662, 0, 2000, -2000] := by decide +kernel

/-- Spec 02, worked figure: the falling segment gives 8,938. -/
theorem test_level_falling : curveLevel (List.replicate 10 0 ++ [9000, 8000]) 1288 = 8938 := by decide +kernel

/-- Spec 09, worked figure: the ramp from 8,500 to 6,156 at 1, 2, 20, 24, 47 and 48. -/
theorem test_ramp_figure : [1, 2, 20, 24, 47, 48].map (rampGain 8500 6156) = [8452, 8403, 7524, 7328, 6205, 6156] := by
  decide +kernel

/-- Spec 09, worked figure: the chord 119,600 at M = 65,535 floors to 30,617,132 and saturates; 445 does not. -/
theorem test_scale_figures :
    scaleMix 445 2048 = 3560 ∧ scaleMix 445 65535 = 113918 ∧ scaleMix 119600 65535 = 30617132 ∧
      saturate (scaleMix 119600 65535) = 8388607 ∧ scaleMix 119600 2048 = 956800 := by decide +kernel

/-- Spec 11.2: NOTE_START of station 1, tag 0, note 60, LEAD, class 1, its CRC worked out by R196 outside the model. -/
def noteStartBytes : List Byte := [9, 3, 0, 60, 2, 66, 22]

theorem test_note_start_read :
    verdict noteStartBytes = .good { station := 1, payload := .noteStart 0 60 .lead 1 } := by decide +kernel

/-- Spec 11.2: CLAIM 20 on 64 of station 1, HELD 1 to 4 of claim 87 on 64 with EARLIER_CLAIM, NOTE_END t1 of station 6. -/
theorem test_frames_sent :
    LineFrame.bytes { station := 1, payload := .claim 20 64 } = [140, 2, 20, 64, 255, 217] ∧
      LineFrame.bytes { station := 1, payload := .held 4 87 64 .earlierClaim } = [75, 4, 4, 87, 64, 1, 34, 230] ∧
      LineFrame.bytes { station := 6, payload := .noteEnd 1 } = [50, 1, 1, 68, 73] := by decide +kernel

/-- R143: a damaged byte makes the frame a discarded one; so does a header of another class. -/
theorem test_damaged_frame : verdict [9, 3, 0, 61, 2, 66, 22] = .discard ∧ verdict [73, 3, 0, 60, 2, 83, 126] = .discard := by
  decide +kernel

/-- No row of the table has bits. -/
theorem test_no_word_decodes : decodeTableWord 16 9 = none ∧ State.reset.withFetchWord 16 9 = State.reset := by
  decide +kernel

/-! ### A flash -/

/-- A run of bytes with its CRC-16 (R196). -/
def sealed (body : List Byte) : List Byte := body ++ crcBytes body

/-- A value in two bytes, high byte first. -/
def two (n : Nat) : List Byte := [BitVec.ofNat 8 (n / 256), BitVec.ofNat 8 n]

/-- A value in three bytes, high byte first. -/
def three (n : Nat) : List Byte := [BitVec.ofNat 8 (n / 65536), BitVec.ofNat 8 (n / 256), BitVec.ofNat 8 n]

/-- The nine sections of a small image, kinds 1 to 9: line on, key 13, default program 9, one chart entry, one program, no wave
table. -/
def sections : List (List Byte) :=
  [sealed [1],
    sealed ([0, 64, 0, 0, 20, 21, 24, 24] ++ [0, 1, 255, 2, 9, 128] ++ List.replicate 10 0),
    sealed [1, 63, 0, 0, 0, 255, 0, 0, 0, 200],
    sealed (two 300 ++ two 5000 ++ two 5000 ++ (List.range 33).flatMap fun i => two (1100 * i)),
    sealed ((List.range 12).flatMap fun i => two (100 * i)),
    sealed ([4, 0, 0, 1, 0, 0, 192, 0, 255, 255, 255, 0] ++ [1, 1, 9, 5, 255, 255, 20, 0, 0, 0, 0, 0] ++
      [9, 0, 1, 1, 0, 0, 0, 0, 0, 0, 0, 0] ++ [2, 0, 1, 9, 0, 0, 0, 0, 0, 0, 0, 0] ++ [1, 7]),
    sealed [8, 0, 13, 240, 0, 9],
    sealed (1 :: three 600),
    sealed [0]]

/-- Directory entries for sections that stand one after the other from an address on. -/
def directoryBytes (kind address : Nat) : List (List Byte) → List Byte
  | [] => []
  | x :: xs => BitVec.ofNat 8 kind :: (three address ++ three x.length ++ directoryBytes (kind + 1) (address + x.length) xs)

/-- A program block: soft wave 200, settle 99, attack 0, slew 0, strength 16, one interval of 100 semitones. -/
def block : List Byte :=
  sealed ([200, 1, 64, 0, 99, 2, 0, 0, 9, 196, 255, 255, 16, 32, 0, 40, 3] ++ [64, 0, 1, 100, 3, 0, 0] ++
    [48, 0, 9, 251, 248, 1, 2] ++ [0, 0, 0, 0, 0, 0, 0] ++ [0, 16, 0])

/-- A flash with this header start, directory and sections, and with the program block at 600. -/
def flashOf (start directory : List Byte) (parts : List (List Byte)) : List Byte :=
  let image := sealed (start ++ directory) ++ parts.flatten
  image ++ List.replicate (600 - image.length) 0 ++ block

/-- The flash of the small image. -/
def flash : List Byte := flashOf [75, 66, 50, 56, 1] (directoryBytes 1 70 sections) sections

/-- The flash with one byte changed. -/
def damaged (i : Nat) : List Byte := flash.set i (byteAt flash i ^^^ 1)

theorem flash_good : headerGood flash = true ∧ sectionsGood flash = true := by decide +kernel

theorem flash_loads : loadImage flash = some (imageOf flash) := by
  simp only [loadImage, flash_good.1, flash_good.2, Bool.and_self, if_true]

/-- Station 1 in its start-up load. -/
def starting : State :=
  { State.reset with
    power := { resetHeld := false, station := 1 }
    loader := { image := .loading, reading := some .imageLoad, startUpDone := false } }

/-- The clamps at load (R3, R5, R17, R27, R38, R179): an octave value of −128 as −2, a base note of 200 as 127, a pattern cut to its
care set, T_off below T_on, a count of 0 as 1, an unknown join as SEPARATE, key 13 as 1, an empty scale set as all twelve. -/
theorem test_image_clamps :
    (imageOf flash).octaveTable.take 6 = [0, 1, -1, 2, 3, -2] ∧
      (imageOf flash).chart = [⟨keys [0, 1, 2, 3, 4, 5], keys [0, 1, 2, 3, 4, 5], 127⟩] ∧
      (imageOf flash).tOff = 299 ∧ (imageOf flash).lipCentre = 4095 ∧
      (imageOf flash).detectorDefs =
        ⟨some ⟨.keys (keys [22, 23]) (keys [22, 23]), false, 1, .octaveUp⟩, some ⟨.breath 0 4095, true, 9, .report⟩, none,
          none⟩ ∧
      (imageOf flash).join23 = .separate ∧ (imageOf flash).defaultKey = 1 ∧ (imageOf flash).defaultScale = 4095 := by
  decide +kernel

/-- The clamps at a program read (R68). -/
theorem test_program_clamps :
    (readProgram flash 600).map (fun p => (p.softWave, p.settle, p.attack, p.portamento, p.slew)) =
        some (15, 15, 1, 2000, 1) ∧
      (readProgram flash 600).map (fun p => (p.rankPrograms.e0.intervals, p.rankPrograms.e1.intervals)) =
        some ([24], [-5, -8, 1, 2]) := by decide +kernel

/-! ### Power-on and the image -/

theorem test_power_on_reset :
    after .powerOnReset { ready with pending := [.sample] } = { State.reset with pending := [.sample] } := by decide +kernel

/-- Straps 101 give station 5 (R175). -/
theorem test_reset_release :
    (after (.resetRelease 5) State.reset).power = { resetHeld := false, station := 5 } ∧
      (after (.resetRelease 5) State.reset).loader.image = .loading := by decide +kernel

/-- An undriven flash reads as bytes of 255 and faults (R176, R177). -/
theorem test_image_load_fault :
    (after (.imageLoadFault []) starting).loader.image = .fault ∧
      (after (.imageLoadFault flash) starting).loader.image = .loading := by decide +kernel

/-- The load installs the image: bank A READY with the highest program, the line JOINING (R74, R136, R178). -/
theorem test_image_load_complete :
    (after (.imageLoadComplete flash) starting).banks.a.code = (3, 0) ∧
      (after (.imageLoadComplete flash) starting).line.state = .joining ∧
      (after (.imageLoadComplete flash) starting).harmony.key = 1 := by decide +kernel

/-- A bad default block leaves bank A EMPTY with PROGRAM_FAULT and the image LOADED (R74, R178). -/
theorem test_bad_default_block :
    (after (.imageLoadComplete (damaged 610)) starting).banks.a = .empty ∧
      (after (.imageLoadComplete (damaged 610)) starting).panel.events.programFault = .unmarked ∧
      (after (.imageLoadComplete (damaged 610)) starting).loader.image.code = 2 := by decide +kernel

theorem test_default_program_read_start :
    (after (.defaultProgramReadStart flash) starting).banks.a = .loading 0 := by decide +kernel

/-- A program read under way for bank B, of the program at `address`. -/
def reading (address : Nat) : State :=
  { ready with loader := { image := .loaded { image with directory := [0, address] },
                           reading := some (.programRead .bankB 1), startUpDone := true }
               banks := { ready.banks with b := .loading 1 } }

/-- A good block makes bank B READY and current; one past the flash's end makes it EMPTY (R72, R179, R180). -/
theorem test_program_read_complete :
    (after (.programReadComplete flash) (reading 600)).banks.selector = .bankB ∧
      (after (.programReadComplete flash) (reading 600)).banks.b.code = (3, 1) ∧
      (after (.programReadComplete flash) (reading 601)).banks.b = .empty ∧
      (after (.programReadComplete flash) (reading 601)).banks.selector = .bankA := by decide +kernel

/-! ### Sensor frames -/

/-- A voice at rest on its note. -/
def voice (state : VoiceState) (role : Role) (note : Nat) : Voice :=
  { state := state, role := role, note := note, bank := .bankA, baseCurrent := 1000 * note, baseTarget := 1000 * note,
    justCurrent := 0, justTarget := 0, openingGain := none, pitch := 1000 * note, increment := incrementOf (1000 * note) }

/-- A slot with a voice, its gain current and its gain target. -/
def held (announced : Bool) (current target : Nat) (v : Voice) : Slot :=
  { announced := announced, gainCurrent := current, gainTarget := target, phase := 0, voice := some v }

/-- A FREE slot. -/
def free : Slot := Slot.reset

/-- A lead on note 60 sounding in slot 0, unannounced. -/
def sounding : State :=
  { ready with
    breath := { ready.breath with articulation := .sounding, level := 8500 }
    slots := ⟨held false 6000 8500 (voice .sounding .lead 60), free, free, free, free, free, free, free⟩ }

/-- Spec 02, worked figures: level 9,075 of class 1, bend −104. -/
theorem test_sensor_frame_level :
    (after (.sensorFrame (burst 0 (keys [0, 1]) 1500 1800)) ready).breath.level = 9075 ∧
      (after (.sensorFrame (burst 0 (keys [0, 1]) 1500 1800)) ready).breath.levelClass = 1 ∧
      (after (.sensorFrame (burst 0 (keys [0, 1]) 1500 1800)) ready).breath.bend = -104 := by decide +kernel

/-- Spec 02, worked figure: sequence 53 after 40 while LOST adds 12 to the count of 7 and raises SENSOR_BACK. -/
theorem test_sensor_frame_gap :
    let lost := { ready with sensor := { receiver := .lost, missingTimer := 8, missedFrames := 7,
                                         lastFrame := some { seq := 40, keys := 0, breath := 0, lip := 0 } } }
    (after (.sensorFrame (burst 53 0 0 0)) lost).sensor.missedFrames = 19 ∧
      (after (.sensorFrame (burst 53 0 0 0)) lost).panel.events.sensorBack = .unmarked := by decide +kernel

/-- Spec 01, worked figure of the chart: 79, 78, UNRESOLVED and 72. -/
theorem test_chart_figure :
    [keys [0, 1, 2, 14, 20], keys [0, 1, 2, 7, 14, 20], keys [0, 2, 21], keys [14]].map
        (fun k => image.candidate (image.maskedKeys k)) = [.note 79, .note 78, .unresolved, .note 72] := by decide +kernel

/-- Spec 02, worked figure: sums of 3,395 and 23,680 give Z 212 and 1,023 with BASELINE_HIGH (R24, R25). -/
theorem test_baseline_figures :
    let captured := fun sum => after .baselineCaptureComplete
      { ready with breath := { Breath.reset with captureCount := 16, captureSum := sum } }
    (captured 3395).breath.baseline = some 212 ∧ (captured 3395).panel.events.baselineHigh = .absent ∧
      (captured 23680).breath.baseline = some 1023 ∧ (captured 23680).panel.events.baselineHigh = .unmarked := by
  decide +kernel

/-- A state whose onset has reached its last frame, with the candidate 72. -/
def onsetEnded : State :=
  { ready with
    resolver := { Resolver.reset with previous := some (.note 72) }
    breath := { ready.breath with articulation := .onset, onsetCounter := 2, onsetPeak := 9281, onsetEnding := true } }

/-- R9, R32, R54: the lead starts in slot 0 on the candidate, silent, aiming at the onset peak, with its NOTE_START queued. -/
theorem test_onset_end :
    ((after .onsetEnd onsetEnded).voice 0).map (fun v => (v.note, v.openingGain)) = some (72, some 9281) ∧
      ((after .onsetEnd onsetEnded).slot 0).gainTarget = 0 ∧
      (after .onsetEnd onsetEnded).line.queue.map Queued.record =
        [.noteStart 0 72 .lead 0, .claim 0 0 76, .claim 1 1 67] := by decide +kernel

/-- The loss of a RECEIVING receiver at its eighth boundary (R20, R21, R34). -/
def losing : State := { sounding with sensor := { Sensor.reset with receiver := .receiving, missingTimer := 8 } }

theorem test_sensor_lost :
    (after .sensorLost losing).sensor.receiver = .lost ∧ (after .sensorLost losing).breath.articulation = .silent ∧
      ((after .sensorLost losing).voice 0).map Voice.releasing = some true := by decide +kernel

/-- Detector `d` at its count. -/
def reached (d : Fin 4) (n : Nat) (s : State) : State :=
  { s with detectors := s.detectors.set d { hits := n, armed := true } }

/-- Spec 03, worked figure: the joined pair fires OCTAVE_UP, and the lead note moves an octave (R11, R12, R45). -/
theorem test_detector_fires_octave :
    (after .detectorFire (reached 0 3 ready)).resolver.octaveShift = 1 ∧
      (after .detectorFire (reached 0 3 ready)).resolver.leadNote = 72 ∧
      (after .detectorFire (reached 0 3 ready)).detectors.e0 = { hits := 3, armed := false } := by decide +kernel

/-- REPORT of detector 2 (R48); HARMONY_TOGGLE of detector 3 (R46). -/
theorem test_detector_fires_report_and_toggle :
    (after .detectorFire (reached 2 1 ready)).panel.gestureSet = 4 ∧
      (after .detectorFire (reached 3 50 ready)).harmony.master = false := by decide +kernel

/-! ### Boundaries -/

/-- Spec 04, worked figure: at b2 the gain takes 3,000 and aims at 6,000, at b5 a release falls to 3,656, at b8 the slot is FREE. -/
theorem test_boundary_gains :
    let at' := fun current target v =>
      let t := after .audioBlockBoundary
        { sounding with slots := ⟨held true current target v, free, free, free, free, free, free, free⟩ }
      ((t.voice 0).isSome, (t.slot 0).gainCurrent, (t.slot 0).gainTarget)
    at' 0 3000 (voice .sounding .lead 60) = (true, 3000, 6000) ∧
      at' 8500 6156 (voice .releasingNormal .lead 60) = (true, 6156, 3656) ∧
      at' 1156 0 (voice .releasingNormal .lead 60) = (false, 0, 0) ∧
      at' 6000 5001 (voice (.releasingWithdraw none) (.harmony 0) 60) = (true, 5001, 4375) ∧
      at' 1245 619 (voice (.releasingWithdraw (some 626)) (.harmony 0) 60) = (true, 619, 0) := by decide +kernel

/-- Spec 05, worked case: with the root at 62 a lead on 69 at strength 16 aims at +20 and moves there by the slew of 10; with no root
the lowest sounding note is adopted at once (R80, R86). -/
theorem test_boundary_pitch :
    let s := { sounding with
      slots := ⟨held true 6000 8500 (voice .sounding .lead 69), free, free, free, free, free, free, free⟩
      map := { sounding.map with entries := [{ station := 5, tag := 0, note := 62, role := .lead, levelClass := 2 }] } }
    (after .audioBlockBoundary s).pitch.root = some 62 ∧
      ((after .audioBlockBoundary s).voice 0).map (fun v => (v.justTarget, v.justCurrent, v.pitch)) = some (20, 10, 69010) := by
  decide +kernel

/-- R81: the sixteenth steady boundary makes the root settle, and ROOT_SETTLED adopts it. -/
theorem test_root_settled :
    let s := { sounding with pitch := { Pitch.reset with root := some 55, previousRoot := some 60, settleCount := 15 } }
    (after .audioBlockBoundary s).pitch.root = some 55 ∧
      (after .rootSettled (after .audioBlockBoundary s)).pitch =
        { root := some 60, previousRoot := some 60, settleCount := 0, tuning := 0 } := by decide +kernel

/-- Values processed and waiting for a boundary. -/
def waiting : State :=
  { ready with panel := { Panel.reset with waitTranspose := some (-12), waitTuning := some 500, waitKey := some (7, 2741),
                                           waitRanks := some 6 } }

/-- The same once a boundary has passed. -/
def met : State := after .audioBlockBoundary waiting

/-- The values are live after the boundary that follows their messages, and not before it (R185). -/
theorem test_settings_taken :
    (after .transposeTaken met).resolver.leadNote = 48 ∧ (after .tuningTaken met).pitch.tuning = 500 ∧
      (after .keyTaken met).harmony.scale = 2741 ∧ (after .ranksTaken met).harmony.liveRanks = 6 ∧
      after .transposeTaken waiting = waiting ∧ after .tuningTaken waiting = waiting ∧ after .keyTaken waiting = waiting ∧
      after .ranksTaken waiting = waiting := by
  decide +kernel

/-- A transpose taken while the image is in FAULT leaves the lead note 60 (R16). -/
theorem test_lead_note_in_fault :
    (after .transposeTaken { met with loader := { met.loader with image := .fault } }).resolver.leadNote = 60 := by
  decide +kernel

/-! ### The claim protocol -/

/-- The program of the sequences of spec 06, 6.8: rank 1 alone, candidates +4 and +7. -/
def sectionProgram : Program := { factoryProgram with rankSet := 1, rankPrograms := ⟨⟨16384, [4, 7]⟩, ⟨0, []⟩, ⟨0, []⟩⟩ }

/-- Station `st` of those sequences after its lead start on note 60: rank 1 with claim `number` on 64 in slot 1, in this stage. -/
def claiming (st : Fin 8) (number : Byte) (stage : Stage) : State :=
  { sounding with
    power := { resetHeld := false, station := st }
    banks := { sounding.banks with a := .ready { number := 0, params := sectionProgram } }
    slots := ⟨held true 6000 8500 (voice .sounding .lead 60),
      held false 1000 4096 (voice (if stage = .sounding then .sounding else .provisional) (.harmony 0) 64), free, free, free, free,
      free, free⟩
    harmony := { Harmony.reset with
      scale := 2741, counter := number + 1
      ranks := ⟨{ Rank.reset with stage := stage, claim := some { number := number, note := 64 }, slot := some 1 }, Rank.reset,
        Rank.reset⟩ } }

/-- The same with its CLAIM queued. -/
def claimQueued (st : Fin 8) (number : Byte) : State :=
  let s := claiming st number .queued
  { s with line := { s.line with queue := [Queued.fresh (.claim 0 number 64)] } }

/-- R105: the tenth queued boundary passes the claim to the map. -/
theorem test_stale_claim :
    let s := claimQueued 1 20
    let old := setRank 0 { s.rank 0 with queuedAge := 10 } s
    ((after (.staleClaim 0) old).rank 0).stage = .localPending ∧ (after (.staleClaim 0) old).line.queue = [] ∧
      ((after (.staleClaim 0) s).rank 0).stage = .queued := by decide +kernel

/-- Sequence A, event 7: the fourth boundary of the window confirms, and NOTE_START t1 64 HARMONY is queued. -/
theorem test_claim_confirm :
    let s := claiming 1 20 .window
    let s := setRank 0 { s.rank 0 with windowAge := 4 } s
    ((after (.claimConfirm 0) s).rank 0).stage = .sounding ∧
      (after (.claimConfirm 0) s).line.queue.map Queued.record = [.noteStart 1 64 .harmony 0] := by decide +kernel

/-- The map holds station 3's harmony on this note. -/
def heard (note : Nat) (s : State) : State :=
  { s with map := { s.map with entries := [{ station := 3, tag := 2, note := note, role := .harmony, levelClass := 0 }] } }

/-- Rank 1 has met a boundary. -/
def due (s : State) : State := setRank 0 { s.rank 0 with localDue := true } s

/-- Sequence D: with 67 in the map instead, local resolution of 64 confirms; with 64 there it refuses and claims 67. -/
theorem test_local_resolution :
    let s := due (claiming 4 87 .localPending)
    ((after (.localResolution 0) (heard 67 s)).rank 0).stage = .sounding ∧
      ((after (.localResolution 0) (heard 64 s)).rank 0).claim = some { number := 88, note := 67 } ∧
      ((after (.localResolution 0) (heard 64 s)).rank 0).refused = [64] ∧
      ((after (.localResolution 0) (heard 67 (claiming 4 87 .localPending))).rank 0).stage = .localPending := by
  decide +kernel

/-- Sequence A, event 5: a peer's CLAIM on the queued note makes the rank yield and claim 88 on 67 in slot 2. -/
theorem test_peer_claim_yields :
    let t := after (.peerClaim (LineFrame.bytes { station := 1, payload := .claim 20 64 })) (claimQueued 4 87)
    t.line.queue.map Queued.record = [.claim 0 88 67] ∧ (t.rank 0).position = 1 ∧ (t.rank 0).slot = some 2 ∧
      t.harmony.counter = 89 := by decide +kernel

/-- Sequence B, event 6: a station in WINDOW answers with EARLIER_CLAIM. -/
theorem test_peer_claim_answered :
    (after (.peerClaim (LineFrame.bytes { station := 4, payload := .claim 87 64 })) (claiming 1 20 .window)).line.queue.map
      Queued.record = [.held 4 87 64 .earlierClaim] := by decide +kernel

/-- Sequence B, event 7: the HELD yields the rank it names; one of a retired number does nothing (R110). -/
theorem test_peer_held :
    let answer := fun k => after (.peerHeld (LineFrame.bytes { station := 1, payload := .held 4 k 64 .earlierClaim }))
      (claiming 4 87 .window)
    ((answer 87).rank 0).refused = [64] ∧ ((answer 86).rank 0).stage = .window := by decide +kernel

/-- R113: a SOUNDING rank yields to a HARMONY entry of a lower station and stands against a higher one. -/
theorem test_peer_note_start :
    let hear := fun st : Fin 8 => after
      (.peerNoteStart (LineFrame.bytes { station := st, payload := .noteStart 1 64 .harmony 1 })) (claiming 4 87 .sounding)
    ((hear 1).rank 0).refused = [64] ∧ ((hear 6).rank 0).stage = .sounding ∧
      (hear 6).map.entries = [{ station := 6, tag := 1, note := 64, role := .harmony, levelClass := 1 }] := by decide +kernel

theorem test_peer_note_end :
    (after (.peerNoteEnd (LineFrame.bytes { station := 3, payload := .noteEnd 2 })) (heard 64 ready)).map.entries = [] ∧
      (after (.peerNoteEnd (LineFrame.bytes { station := 3, payload := .noteEnd 1 })) (heard 64 ready)).map.entries.length = 1 ∧
      ((after (.peerNoteEnd (LineFrame.bytes { station := 3, payload := .noteEnd 1 })) (heard 64 ready)).map.stations.get 3).present =
        true := by decide +kernel

/-- R127: a ROSTER replaces the entries of its station; written out by spec 11.2. -/
theorem test_peer_roster :
    (after (.peerRoster [221, 7, 2, 0, 55, 4, 1, 59, 5, 77, 30]) (heard 64 ready)).map.entries =
      [{ station := 3, tag := 0, note := 55, role := .lead, levelClass := 2 },
        { station := 3, tag := 1, note := 59, role := .harmony, levelClass := 2 }] := by decide +kernel

theorem test_station_expiry :
    let s := setStation 3 { present := true, age := 200 } (heard 64 ready)
    (after (.stationExpiry 3) s).map = SectionMap.reset ∧ (after (.stationExpiry 4) s).map = s.map := by decide +kernel

/-! ### The Section Line -/

/-- A line state with its timers and error counter. -/
def lineAt (state : LineState) (joining decay errors : Nat) : State :=
  { ready with line := { Line.reset with state := state, joiningTimer := joining, decayTimer := decay, errorCounter := errors } }

/-- R137: the 200th boundary in JOINING. -/
theorem test_joining_complete :
    (after .joiningComplete (lineAt .joining 200 0 0)).line.state = .active ∧
      (after .joiningComplete (lineAt .joining 200 0 0)).line.queue.map Queued.record = [.roster] ∧
      (after .joiningComplete (lineAt .joining 199 0 0)).line.state = .joining := by decide +kernel

/-- Spec 08, 8.6: the eighth boundary in LISTEN_ONLY takes 96 to 95, and a counter at 0 ends it. -/
theorem test_listen_only :
    (after .decayTimerExpiry (lineAt .listenOnly 0 8 96)).line.errorCounter = 95 ∧
      (after .listenOnlyEnd (lineAt .listenOnly 0 0 0)).line.state = .active ∧
      (after .listenOnlyEnd (lineAt .listenOnly 0 0 1)).line.state = .listenOnly := by decide +kernel

theorem test_roster_timer_expiry :
    let s := { ready with line := { ready.line with rosterTimer := some 64 } }
    (after .rosterTimerExpiry s).line.queue.map Queued.record = [.roster] ∧
      (after .rosterTimerExpiry s).line.rosterTimer = none := by decide +kernel

/-- Queued records without abandonments. -/
def queueOf (rs : List Record) (s : State) : State := { s with line := { s.line with queue := rs.map Queued.fresh } }

/-- R150: a ROSTER's contents are the SOUNDING slots at the start. -/
theorem test_transmit_start :
    (after .transmitStart (queueOf [.roster] (claiming 1 20 .sounding))).line.underWay =
        some (.roster [{ tag := 0, note := 60, role := .lead, levelClass := 0 },
          { tag := 1, note := 64, role := .harmony, levelClass := 0 }]) ∧
      (after .transmitStart (queueOf [.noteEnd 2] ready)).line.queue =
        [{ record := .noteEnd 2, abandons := 0, underWay := true }] := by decide +kernel

/-- A frame under way from the head of the queue. -/
def driving (rs : List Record) (s : State) : State := after .transmitStart (queueOf rs s)

/-- Spec 08, 8.5, idle 1: a CLAIM of station 1 loses to the header of station 3's NOTE_START; to its own header it does not. -/
theorem test_arbitration_lost :
    let s := driving [.claim 0 40 67] ready
    (after (.arbitrationLost (headerByte 3 (.noteStart 0 57 .lead 0))) s).line = (queueOf [.claim 0 40 67] ready).line ∧
      (after (.arbitrationLost (headerByte 1 (.claim 40 67))) s).line = s.line := by decide +kernel

/-- Spec 08, 8.6: from 80 a bit error leaves 88 and the record at one abandonment; from 88 it is LISTEN_ONLY and the rank
LOCAL_PENDING. -/
theorem test_bit_error :
    let s := fun n : Nat => driving [.noteStart 0 60 .lead 0, .claim 0 17 64]
      { claiming 5 17 .queued with line := { ready.line with errorCounter := n } }
    (after .bitError (s 80)).line.errorCounter = 88 ∧
      (after .bitError (s 80)).line.queue.map Queued.abandons = [1, 0] ∧
      (after .bitError (s 88)).line.state = .listenOnly ∧ (after .bitError (s 88)).line.queue = [] ∧
      ((after .bitError (s 88)).rank 0).stage = .localPending := by decide +kernel

/-- Spec 08, 8.6: at its third abandonment a record is dropped. -/
theorem test_bit_error_drop :
    let s := driving [.noteStart 0 60 .lead 0] ready
    let s := { s with line := { s.line with queue := s.line.queue.map fun y => { y with abandons := 2 } } }
    (after .bitError s).line.queue = [] ∧ (after .bitError s).line.recordsDropped = 1 := by decide +kernel

/-- R61, R104, R155: a NOTE_START announces its tag, a CLAIM opens its window. -/
theorem test_own_frame_complete :
    ((after .ownFrameComplete (driving [.noteStart 1 64 .harmony 0] (claiming 1 20 .sounding))).slot 1).announced = true ∧
      ((after .ownFrameComplete (driving [.claim 0 20 64] (claiming 1 20 .queued))).rank 0).stage = .window ∧
      (after .ownFrameComplete (driving [.claim 0 20 64] (claiming 1 20 .queued))).line.queue = [] := by decide +kernel

/-- R142, R194: bits that break off count, the bits of a whole frame do not. -/
theorem test_line_frame_broken :
    (after (.lineFrameBroken [true, false, true]) ready).line.badFrames = 1 ∧
      (after (.lineFrameBroken (lineBits noteStartBytes)) ready).line.badFrames = 0 := by decide +kernel

/-- The own frame abandoned in its length byte is not counted where its reading ends at a length of 255 (R143). -/
theorem test_frame_discarded :
    (after (.frameDiscarded [9, 3, 0, 61, 2, 66, 22]) ready).line.badFrames = 1 ∧
      (after (.frameDiscarded noteStartBytes) ready).line.badFrames = 0 ∧
      (after (.frameDiscarded [9, 255]) ready).line.badFrames = 1 ∧
      (after (.frameDiscarded [9, 255]) (after .bitError (driving [.noteStart 0 60 .lead 0] ready))).line.badFrames = 0 := by
  decide +kernel

/-- R132, R140: a frame of the own number. -/
theorem test_duplicate_frame :
    (after (.duplicateFrame noteStartBytes) (queueOf [.noteEnd 2] ready)).line.state = .duplicateHold ∧
      (after (.duplicateFrame noteStartBytes) (queueOf [.noteEnd 2] ready)).line.queue = [] ∧
      (after (.duplicateFrame [50, 1, 1, 68, 73]) ready).line.state = .active := by decide +kernel

/-- Spec 08, 8.7: a full queue gives up its last HELD for NOTE_END t5, drops HELD h6, and replaces t5 in place. -/
theorem test_full_queue :
    let h := fun n : Nat => Record.held 0 (BitVec.ofNat 8 n) 60 .sounding
    let notes := [0, 1, 2, 3, 4, 6, 7].map Record.noteEnd
    let tail := [Record.claim 0 1 60, .claim 1 2 60, .claim 2 3 60, .roster]
    let l := (queueOf (notes ++ [h 1, h 2, h 3, h 4, h 5] ++ tail) ready).line
    ((l.enqueue (.noteEnd 5)).queue.map Queued.record = notes ++ [.noteEnd 5] ++ [h 1, h 2, h 3, h 4] ++ tail ∧
      (l.enqueue (.noteEnd 5)).heldDropped = 1) ∧
    ((l.enqueue (.noteEnd 5)).enqueue (h 6)).heldDropped = 2 ∧
    ((l.enqueue (.noteEnd 5)).enqueue (.noteStart 5 60 .lead 0)).queue.map Queued.record =
      notes ++ [.noteStart 5 60 .lead 0] ++ [h 1, h 2, h 3, h 4] ++ tail := by decide +kernel

/-! ### Rendering -/

/-- Spec 09, worked figure: the A4 voice at sample 20 gives 2,275, by a position of 74 and a fraction of 127. -/
theorem test_voice_output_figure :
    let wave := fun a b : Int => List.replicate 74 0 ++ [a, b] ++ List.replicate 180 0
    let p := { factoryProgram with softWave := 0, brightWave := 1, depth := 20000 }
    let s := { ready with
      loader := { ready.loader with image := .loaded { image with waves := [wave 12000 12500, wave (-4000) 9000] } }
      banks := { ready.banks with a := .ready { number := 0, params := p } }
      breath := { ready.breath with level := 9075 } }
    let x := { held true 6000 8500 { voice .sounding .lead 69 with increment := 39381907 } with phase := 1210470525 }
    (advancePhase x).phase = 1249852432 ∧ lookupWave (s.wave 0) 1249852432 = 12248 ∧
      lookupWave (s.wave 1) 1249852432 = 2449 ∧ s.slotOutput 20 (advancePhase x) = 2275 := by decide +kernel

/-- The image with a master gain of 65,535 and two waves that stand at 32,767. -/
def loud : Image := { image with masterGain := 65535, waves := [List.replicate 256 32767, List.replicate 256 32767] }

/-- R172: −2 goes out as 23 ones and a zero, 1 as 23 zeros and a one, on either channel. -/
theorem test_channel_words :
    (streamFrame (-2)).bits = List.replicate 23 true ++ [false] ++ (List.replicate 23 true ++ [false]) ∧
      channelBits (sampleWord 1) = List.replicate 23 false ++ [true] := by decide +kernel

/-- R171 to R173: a loud flat voice saturates at M 65,535 and is sent one period later. -/
theorem test_sample_clips :
    let s := { sounding with
      loader := { ready.loader with image := .loaded loud }
      slots := ⟨held true 32767 32767 (voice .sounding .lead 60), held true 32767 32767 (voice .sounding .lead 64), free, free,
        free, free, free, free⟩ }
    (after .sample s).audio.engineSample = 8388607 ∧ (after .sample s).audio.clipCount = 1 ∧
      (after .sample s).audio.sent = streamFrame 0 ∧
      (after .sample (after .sample s)).audio.sent = { left := 8388607, right := 8388607 } := by decide +kernel

/-! ### The Panel Port -/

/-- A panel message of a kind with two operand bytes. -/
def message (kind a b : Byte) : Octets := ⟨kind, a, b, 0, 0, 0, 0, 0⟩

/-- The part with this message at the head of its in FIFO. -/
def asked (m : Octets) (s : State) : State := { s with panel := { s.panel with inFifo := [m] } }

/-- Spec 10, worked figure: T1 moves an IDLE out and takes the STATUS, T2 moves STATUS_STATE out with more behind it. -/
theorem test_panel_transfer :
    let t1 := after (.panelTransfer (message 7 0 0)) ready
    let t2 := after (.panelTransfer (message 0 0 0)) t1
    t1.panel.lastSent = some ⟨0, 8, 0, 0, 0, 0, 0, 0⟩ ∧ t1.panel.inFifo.length = 1 ∧
      t2.panel.lastSent.map (fun o => (o.b0, o.b1)) = some (2, 136) ∧ t2.panel.outFifo.length = 3 := by decide +kernel

/-- R183: a ninth message is dropped with PANEL_OVERRUN. -/
theorem test_panel_overrun :
    let s := { ready with panel := { Panel.reset with inFifo := List.replicate 8 (message 1 99 0)
                                                      outFifo := List.replicate 8 (.refused .badMessage 9) } }
    (transfer (message 5 1 0) s).panel.inFifo.length = 8 ∧
      (transfer (message 5 1 0) s).panel.events.panelOverrun = .unmarked := by decide +kernel

theorem test_panel_transfer_aborted : after .panelTransferAborted (asked (message 1 2 3) ready) = asked (message 1 2 3) ready := by
  decide +kernel

/-- Spec 04, worked figure: with B READY(7) and referenced, PROGRAM 1 makes it PENDING holding 7; PROGRAM 9 is refused here, where the
count is 2. -/
theorem test_program_pending_and_refused :
    let s := { ready with
      banks := { ready.banks with b := .ready { number := 7, params := factoryProgram } }
      slots := ⟨free, free, free, free, free, held true 900 0 { voice .releasingNormal (.harmony 0) 60 with bank := .bankB }, free,
        free⟩ }
    (after .program (asked (message 1 1 0) s)).banks.b = .pending 1 (some { number := 7, params := factoryProgram }) ∧
      (after .program (asked (message 1 9 0) s)).panel.outFifo = [.refused .badProgram 1] := by decide +kernel

/-- R69: PROGRAM of the other bank's READY program flips the selector with PROGRAM_LOADED; a new one starts a read. -/
theorem test_program_ready_and_read :
    let s := { ready with banks := { ready.banks with b := .ready { number := 1, params := factoryProgram } } }
    (after .program (asked (message 1 1 0) s)).banks.selector = .bankB ∧
      (after .program (asked (message 1 1 0) ready)).loader.reading = some (.programRead .bankB 1) := by decide +kernel

/-- R185: −128 is clamped to −12, 501 to 500 (1 × 256 + 245). -/
theorem test_transpose_and_tuning :
    (after .transpose (asked (message 2 128 0) ready)).panel.waitTranspose = some (-12) ∧
      (after .tuning (asked (message 3 1 245) ready)).panel.waitTuning = some 500 := by decide +kernel

/-- R185: key 255 is 3, and an empty scale set is refused with BAD_VALUE. -/
theorem test_key :
    (after .key (asked ⟨4, 255, 250, 181, 0, 0, 0, 0⟩ ready)).panel.waitKey = some (3, 2741) ∧
      (after .key (asked ⟨4, 0, 240, 0, 0, 0, 0, 0⟩ ready)).panel.outFifo = [.refused .badValue 4] := by decide +kernel

theorem test_ranks : (after .ranks (asked (message 5 250 0) ready)).panel.waitRanks = some 2 := by decide +kernel

/-- R62, R117: the voices release, the ranks are IDLE, the articulation stays. -/
theorem test_all_off :
    let t := after .allOff (asked (message 6 0 0) (claimQueued 1 20))
    (t.voice 1).map Voice.releasing = some true ∧ (t.rank 0).stage = .idle ∧ t.breath.articulation = .sounding ∧
      t.line.queue.map Queued.record = [.noteEnd 0] := by decide +kernel

/-- Spec 11.4: STATUS of station 1, LOADED, ACTIVE, bank A READY(0), lead 60, no root. -/
theorem test_status :
    (after .status (asked (message 7 0 0) ready)).panel.outFifo.head? = some (.statusState 81 3 0 188 0) ∧
      (after .status (asked (message 7 0 0) (raise .clip ready))).panel.events.clip = .reported := by decide +kernel

/-- R188: the report gives its entries in order and then its end with their count. -/
theorem test_section_report :
    let t := after .sectionEntryPlaced (after .sectionEntryPlaced (after .sectionRequest (asked (message 8 0 0) (heard 64 ready))))
    t.panel.outFifo.map (fun r => (r.bytes 8 false).b0) = [6, 7] ∧ t.panel.report = none ∧
      t.panel.outFifo.getLast? = some (.sectionEnd 1 1) := by decide +kernel

/-- Spec 10, worked figure: an ACK of IMAGE_LOADED and BASELINE_HIGH removes the marked one alone. -/
theorem test_ack :
    let s := { ready with panel := { Panel.reset with
      events := { EventSet.empty with imageLoaded := .reported, baselineHigh := .unmarked } } }
    (after .ack (asked (message 9 0 12) s)).panel.events = { EventSet.empty with baselineHigh := .unmarked } := by
  decide +kernel

/-- R181: RELOAD cuts every slot, keeps the map and the line state, empties the queue. -/
theorem test_reload :
    let t := after .reload (asked (message 10 0 0) (heard 64 (claimQueued 1 20)))
    t.loader.image = .loading ∧ t.slots = slotsReset ∧ t.map.entries.length = 1 ∧ t.line.state = .active ∧ t.line.queue = [] := by
  decide +kernel

/-- R186: an unknown kind code 11. -/
theorem test_bad_message :
    (after .badMessage (asked (message 11 0 0) ready)).panel.outFifo = [.refused .badMessage 11] := by decide +kernel

/-- On an empty queue a part with nothing due idles: the step is settle; with a timer run out it completes what is due (assumption 1). -/
theorem test_idle : settle ready = ready ∧ settle losing = after .sensorLost losing := by decide +kernel

/-! ### Commands the ports cannot carry -/

theorem test_well_formed_refuses :
    Instr.wellFormed (.imageLoadFault (List.replicate 3 0)) = true ∧ Instr.wellFormed (.lineFrameBroken []) = true ∧
      bitsFit (List.replicate 2331 false) = false ∧ frameFits [9] = false ∧ frameFits (List.replicate 260 0) = false ∧
      Instr.wellFormed (.frameDiscarded [9]) = false ∧ Instr.wellFormed (.duplicateFrame []) = false ∧
      Instr.wellFormed (.peerNoteStart [9]) = false ∧ Instr.wellFormed (.peerNoteEnd [9]) = false ∧
      Instr.wellFormed (.peerRoster (List.replicate 260 0)) = false ∧ Instr.wellFormed (.peerClaim [9]) = false ∧
      Instr.wellFormed (.peerHeld [9]) = false ∧ Instr.wellFormed (.lineFrameBroken (List.replicate 2331 true)) = false := by
  decide +kernel

/-- A flash beyond three address bytes is refused, for each command that reads one. -/
theorem test_well_formed_refuses_flash :
    let long := List.replicate 16777217 (0 : Byte)
    Instr.wellFormed (.imageLoadFault long) = false ∧ Instr.wellFormed (.imageLoadComplete long) = false ∧
      Instr.wellFormed (.programReadComplete long) = false ∧ Instr.wellFormed (.defaultProgramReadStart long) = false := by
  simp only [Instr.wellFormed, flashFits, List.length_replicate]
  decide

/-! ### Witnesses: states and operands that meet the hypotheses of the statements -/

/-- What holds of the voice of every slot holds of every slot and its voice. -/
theorem each_voice {s : State} {p : Fin 8 → Voice → Prop} (h : ∀ u, ∀ v ∈ s.voice u, p u v) :
    ∀ u v, s.voice u = some v → p u v := fun u v e => h u v e

theorem witness_StepRunsFrontCommand :
    ({ ready with pending := [.sample, .key] } : State).pending = .sample :: [.key] := rfl

/-- Nothing due, and something due that is completed to a running state with nothing due. -/
theorem witness_DueStepsComeFirst :
    (ready.pending = [] ∧ ready.Quiet) ∧ (losing.Running ∧ (settle losing).Quiet ∧ ¬ losing.Quiet) ∧
      Instr.sample.fromOutside = true := by
  and_intros <;> decide +kernel

/-- Power-on reset; an own step, a message and an arrival whose conditions do not hold with nothing due; an arrival that does not hold
once a due loss is completed; a step that touches the pitch, not come due. -/
theorem witness_EveryCommandCompletes :
    (State.reset.power.resetHeld = true ∧ Instr.sample ≠ .powerOnReset ∧ ∀ p, Instr.sample ≠ .resetRelease p) ∧
      (ready.Running ∧ ready.Quiet ∧ ¬ ready.Meets .onsetEnd ∧ ¬ ready.Meets .allOff ∧ ¬ ready.Meets .transmitStart ∧
        ¬ ready.Meets .tuningTaken) ∧
      (losing.Running ∧ ¬ (settle losing).Meets .bitError ∧ ¬ losing.Meets .keyTaken) ∧
      Instr.bitError.fromOutside = true ∧ Instr.keyTaken.fromOutside = false ∧ Instr.tuningTaken.adoptsRoot = true := by
  refine ⟨⟨rfl, by decide, fun p h => by cases h⟩, ⟨by decide +kernel, by decide +kernel, ?_, ?_, ?_, ?_⟩,
    ⟨by decide +kernel, ?_, ?_⟩, rfl, rfl, rfl⟩ <;> unfold State.Meets <;> decide +kernel

theorem witness_ResetClearsPartAndReadsStraps : State.reset.power.resetHeld = true := rfl

/-- Sections with one replaced. -/
def withSection (i : Nat) (body : List Byte) : List (List Byte) := sections.set i body

/-- A flash with sections in their order and a good header. -/
def goodHeader (parts : List (List Byte)) : List Byte := flashOf [75, 66, 50, 56, 1] (directoryBytes 1 70 parts) parts

/-- The image check as the hypothesis of BadImageFaultsLoad lists it: a wrong identifier, a wrong version, a header CRC that fails, kind
9 listed as kind 10 and so omitted, a STATION section of four bytes, a damaged BREATH section. -/
theorem witness_BadImageFaultsLoad :
    (starting.Running ∧ starting.Quiet ∧ starting.loadingImage = true) ∧
      bytesFrom (flashOf [75, 66, 50, 57, 1] (directoryBytes 1 70 sections) sections) 0 4 ≠ [75, 66, 50, 56] ∧
      bytesFrom (flashOf [75, 66, 50, 56, 2] (directoryBytes 1 70 sections) sections) 4 1 ≠ [1] ∧
      bytesFrom (damaged 10) 68 2 ≠ crcBytes (bytesFrom (damaged 10) 0 68) ∧
      ((imageDirectory (flashOf [75, 66, 50, 56, 1] (directoryBytes 2 70 sections) sections)).filter fun e => e.kind == 1).length
        ≠ 1 ∧
      (∃ e ∈ imageDirectory (goodHeader (withSection 0 (sealed [1, 1]))), sectionLengthAllowed e.kind e.length = false) ∧
      crcGood (sectionBytes (damaged 120) (imageDirectory (damaged 120)) 4) = false := by decide +kernel

/-- A start-up load and a re-read in ACTIVE, each with a good and with a bad default block. -/
theorem witness_ImageLoadInstallsImage :
    (starting.Running ∧ starting.Quiet ∧ starting.loadingImage = true ∧ starting.loader.startUpDone = false) ∧
      loadImage flash = some (imageOf flash) ∧
      (let again := { ready with loader := { image := .loading, reading := some .imageLoad, startUpDone := true } }
       again.Running ∧ again.Quiet ∧ again.loadingImage = true ∧ again.loader.startUpDone = true ∧ again.line.state = .active) :=
  ⟨by decide +kernel, flash_loads, by decide +kernel⟩

theorem witness_LoadedContentsWithinClamps :
    loadImage flash = some (imageOf flash) ∧ readProgram flash 600 = some (programOf (bytesFrom flash 600 43)) :=
  ⟨flash_loads, by decide +kernel⟩

theorem witness_ProgramBlockReads :
    (starting.Running ∧ starting.Quiet ∧ starting.loadingImage = true) ∧ loadImage flash = some (imageOf flash) ∧ (imageOf flash).directory ≠ [] ∧
      (∀ a ∈ [600, 601],
        (reading a).Running ∧ (reading a).Quiet ∧ (reading a).loader.image = .loaded { image with directory := [0, a] } ∧
          (reading a).loader.reading = some (.programRead .bankB 1) ∧ ({ image with directory := [0, a] } : Image).directory[1]? = some a) ∧
      (600 + 43 ≤ flash.length ∧ crcGood (bytesFrom flash 600 43) = true) ∧ ¬ 601 + 43 ≤ flash.length :=
  ⟨by decide +kernel, flash_loads, by decide +kernel, by decide +kernel, by decide +kernel, by decide +kernel⟩

theorem witness_SensorBurstCheck :
    ((0 : Byte).toNat = (255 + 7 * 256 - ((1 : Byte).toNat + (255 : Byte).toNat + (255 : Byte).toNat + 0 + 0 + 0 + 0)) % 256) ∧
      readBurst [] = none ∧ ready.Quiet := by decide +kernel

/-- The frame of a burst. -/
def frameOf (ks : BitVec 24) (breath lip : Nat) : SensorFrame := { seq := 255, keys := ks, breath := breath, lip := lip }

/-- A burst with the last sequence number. -/
def burstOf (ks : BitVec 24) (breath lip : Nat) : List Byte := burst 255 ks breath lip

/-- A receiver that has seen this frame. -/
def seen (g : SensorFrame) (r : ReceiverState) (s : State) : State :=
  { s with sensor := { Sensor.reset with receiver := r, lastFrame := some g } }

/-- No frame before; the same number again; a wrap from 255 to 0 and a gap; a loss; and no image. -/
theorem witness_ValidFrameAtReceiver :
    readBurst (burstOf 0 1500 1800) = some (frameOf 0 1500 1800) ∧
      (ready.Running ∧ ready.Quiet ∧ ready.sensor.lastFrame = none ∧ ready.sensor.receiver ≠ .lost) ∧
      (∀ q ∈ [0, 254, 255],
        (seen { seq := q, keys := 0, breath := 0, lip := 0 } .receiving ready).Running ∧
          (seen { seq := q, keys := 0, breath := 0, lip := 0 } .receiving ready).Quiet ∧ q < 256) ∧
      (seen (frameOf 0 0 0) .lost ready).sensor.receiver = .lost ∧
      (starting.Running ∧ starting.Quiet ∧ starting.image? = none) := by
  and_intros <;> decide +kernel

/-- A resolver that has seen this candidate as often as the count says. -/
def resolved (previous : Candidate) (stability : Nat) (taken : Int) : State :=
  { ready with resolver := { Resolver.reset with previous := some previous, stability := stability, taken := taken } }

/-- A lead on 60 with rank 1's CLAIM queued, one frame before the take of 69. -/
def aboutToTake : State :=
  let s := claimQueued 1 20
  { s with resolver := { s.resolver with previous := some (.note 69), stability := 2 } }

/-- R56: the take of 69 moves the sounding lead by legato and replaces its record; with a net breath below T_off the note ends (R59). -/
theorem test_take_is_legato :
    let t := after (.sensorFrame (burstOf (keys [0, 1]) 412 2048)) aboutToTake
    ((t.voice 0).map Voice.note = some 69 ∧ (t.voice 0).map Voice.baseTarget = some 69000 ∧
      (t.line.queue.map Queued.record).head? = some (.noteStart 0 69 .lead 0)) ∧
      ((after (.sensorFrame (burstOf (keys [0, 1]) 411 2048)) aboutToTake).voice 0).map Voice.state = some .releasingNormal := by
  and_intros <;> decide +kernel

/-- The candidate 69 of keys 0 and 1: taken at its fourth frame with S = 3, not before it, not when it is the taken one; UNRESOLVED;
a stability count of 15. -/
theorem witness_ResolverTakesFrame :
    readBurst (burstOf (keys [0, 1]) 0 2048) = some (frameOf (keys [0, 1]) 0 2048) ∧
      image.candidate (image.maskedKeys (keys [0, 1])) = .note 69 ∧
      image.candidate (image.maskedKeys (keys [0, 2])) = .unresolved ∧
      (∀ s ∈ [resolved (.note 69) 2 60, resolved (.note 69) 1 60, resolved (.note 69) 15 69, resolved .unresolved 0 60],
        s.Running ∧ s.Quiet ∧ s.loader.image = .loaded image) ∧
      (resolved (.note 69) 2 60).settleFrames = 3 ∧
      (∀ b ∈ [412, 411], readBurst (burstOf (keys [0, 1]) b 2048) = some (frameOf (keys [0, 1]) b 2048)) ∧
      (let s := aboutToTake
       s.Running ∧ s.Quiet ∧ s.loader.image = .loaded image ∧ s.breath.articulation = .sounding ∧ s.leadTag = some 0 ∧
         (s.voice 0).isSome = true ∧ (69 : Int) ≠ s.resolver.taken ∧
         (s.settleFrames ≤ if s.resolver.previous = some (.note 69) then min 15 (s.resolver.stability + 1) else 0) ∧
         fold (69 + 12 * s.resolver.octaveShift + s.resolver.transpose) ≠ s.resolver.leadNote ∧
         s.breath.baseline = some 212 ∧ image.tOff ≤ min 4095 (412 - 212) ∧ min 4095 (411 - 212) < image.tOff) := by
  and_intros <;> decide +kernel

theorem witness_ChartGivesCandidate :
    (∀ e ∈ image.chart, image.chartKeys (keys [0, 2]) &&& e.care ≠ e.pattern) ∧
      image.chart = exampleChart.take 4 ++ ⟨keys [0, 1, 2, 3], keys [0, 1, 2], 67⟩ :: exampleChart.drop 5 ∧
      (∀ x ∈ exampleChart.take 4, image.chartKeys (keys [0, 1, 2, 20]) &&& x.care ≠ x.pattern) ∧
      image.chartKeys (keys [0, 1, 2, 20]) &&& keys [0, 1, 2, 3] = keys [0, 1, 2] := by decide +kernel

/-- Capturing the sixteenth frame, capturing complete with a mean at and above 1,023, and an evaluated frame at the ends of its
ranges. -/
theorem witness_BreathOfFrameAndBaseline :
    (∀ b ∈ [0, 212, 4095], readBurst (burstOf 0 b b) = some (frameOf 0 b b)) ∧
      (ready.Running ∧ ready.Quiet ∧ ready.loader.image = .loaded image ∧ ready.breath.baseline = some 212) ∧
      (let s := { ready with breath := { Breath.reset with captureCount := 15, captureSum := 3395 } }
       s.Running ∧ s.Quiet ∧ s.loader.image = .loaded image ∧ s.breath.baseline = none) ∧
      (∀ sum ∈ [1023 * 16 + 15, 1024 * 16],
        let s := { ready with breath := { Breath.reset with captureCount := 16, captureSum := sum } }
        s.Running ∧ s.breath.baseline = none ∧ s.breath.captureCount = 16) := by
  and_intros <;> decide +kernel

/-- The articulation set, with its onset counter. -/
def articulated (a : Articulation) (n : Nat) (s : State) : State :=
  { s with breath := { s.breath with articulation := a, onsetCounter := n } }

/-- Each articulation, with net breath at and just below T_on 300 and T_off 200. -/
theorem witness_ArticulationOfFrame :
    (∀ b ∈ [512, 511, 412, 411], readBurst (burstOf 0 b 2048) = some (frameOf 0 b 2048)) ∧
      (∀ s ∈ [ready, articulated .onset 0 ready, articulated .onset 1 ready, sounding, setAnnounced 0 true (claimQueued 1 20)],
        s.Running ∧ s.Quiet ∧ s.loader.image = .loaded image ∧ s.breath.baseline = some 212) := by decide +kernel

/-- Detectors: a joined lower and upper member and two separate ones, armed, unarmed and one short of the count. -/
theorem witness_DetectorsCountFrame :
    readBurst (burstOf (keys [22, 23]) 212 0) = some (frameOf (keys [22, 23]) 212 0) ∧
      (∀ s ∈ [ready, reached 0 2 ready, { ready with detectors := ready.detectors.set 0 { hits := 3, armed := false } }],
        s.Running ∧ s.Quiet ∧ s.loader.image = .loaded image) ∧
      image.acting 1 = none ∧ (image.acting 0).isSome = true ∧ (image.acting 2).isSome = true := by decide +kernel

/-- The image with another action for detector 0. -/
def acts (a : Action) (s : State) : State :=
  { s with loader := { s.loader with image := .loaded { image with
      detectorDefs := exampleDetectors.set 0 (some ⟨.keys 0 0, false, 3, a⟩) } } }

/-- Each action at its count, in the lowest and in the highest detector. -/
theorem witness_DetectorFireTakesAction :
    (∀ a ∈ [Action.report, .programSwap, .octaveUp, .octaveDown],
      (acts a (reached 0 3 ready)).Running ∧ (acts a (reached 0 3 ready)).firing 0 = some a) ∧
      (∀ a ∈ [Action.octaveUp, .octaveDown],
        let s := acts a (reached 0 3 (claimQueued 1 20))
        s.Running ∧ s.firing 0 = some a ∧ s.breath.articulation = .sounding ∧ s.leadTag = some 0 ∧ (s.voice 0).isSome = true ∧
          (after .detectorFire s).resolver.leadNote ≠ s.resolver.leadNote) ∧
      ((reached 2 1 ready).firing 2 = some .report ∧ ∀ e : Fin 4, e < 2 → (reached 2 1 ready).firing e = none) := by
  decide +kernel

/-- Under a SOUNDING lead, with rank 1's CLAIM queued and rank 1 alone live, a set of rank 2 alone that has met its boundary. -/
def swapping : State :=
  let s := claimQueued 1 20
  { s with
    banks := { s.banks with a := .ready { number := 0, params := factoryProgram } }
    harmony := { s.harmony with liveRanks := 1, scale := 4095 }
    panel := { Panel.reset with waitRanks := some 2, ranksDue := true } }

/-- R98: the rank whose enable ends is IDLE, its slot withdrawn and its CLAIM gone; the newly enabled one claims −5 from 60. -/
theorem test_ranks_taken_under_lead :
    let t := after .ranksTaken (setAnnounced 1 true swapping)
    (t.rank 0).stage = .idle ∧ (t.voice 1).map Voice.state = some (.releasingWithdraw none) ∧
      t.line.queue.map Queued.record = [.noteEnd 1, .claim 1 21 55] ∧ (t.rank 1).slot = some 2 := by decide +kernel

/-- A harmony toggle with rank 1 enabled and rank 3 not; one that enables, with and without a lead; a RANKS set that drops an enabled
rank, with no lead; one that adds a rank under a lead. -/
theorem witness_EnableChangesYieldRanks :
    (let s := reached 3 50 (claimQueued 1 20)
     s.Running ∧ s.firing 3 = some .harmonyToggle ∧ (∀ e : Fin 4, e < 3 → s.firing e = none) ∧ s.harmony.master = true ∧
       s.enabled 0 = true ∧ s.enabled 2 = false) ∧
    (∀ s ∈ [ready, sounding],
      let s := reached 3 50 { s with harmony := { s.harmony with master := false } }
      s.Running ∧ s.firing 3 = some .harmonyToggle ∧ (∀ e : Fin 4, e < 3 → s.firing e = none) ∧ s.harmony.master = false) ∧
    (ready.leadTag = none ∧ sounding.leadTag ≠ none) ∧
    (met.Running ∧ met.pitch.settleCount < 16 ∧ met.panel.ranksDue = true ∧ met.panel.waitRanks = some 6 ∧ met.leadTag = none ∧
      met.enabled 0 = true) ∧
    (let s := after .audioBlockBoundary { sounding with
       harmony := { sounding.harmony with liveRanks := 1 }
       panel := { Panel.reset with waitRanks := some 3 } }
     s.Running ∧ s.pitch.settleCount < 16 ∧ s.panel.ranksDue = true ∧ s.panel.waitRanks = some 3 ∧ s.leadTag ≠ none ∧
       s.enabled 0 = true ∧ s.enabled 1 = false ∧ ∀ r : Fin 3, s.enabled r = true → (3 : BitVec 3).getLsbD r.val = true) ∧
    (swapping.Running ∧ swapping.pitch.settleCount < 16 ∧ swapping.panel.ranksDue = true ∧ swapping.panel.waitRanks = some 2 ∧
      swapping.leadTag ≠ none ∧ swapping.enabled 0 = true ∧ swapping.enabled 1 = false) ∧
    (∀ announced ∈ [true, false],
      let s := setAnnounced 1 announced swapping
      s.rankTag 0 = some 1 ∧ s.voice 1 = some (voice .provisional (.harmony 0) 64) ∧ s.line.state = .active ∧
        (s.slot 1).announced = announced ∧ s.line.announces 1 = false) ∧
    swapping.rankTag 2 = none := by
  and_intros <;> decide +kernel

/-- Every slot RELEASING or SOUNDING, as in the stealing figure of spec 04, with an onset ended. -/
def crowded : State :=
  { onsetEnded with
    resolver := onsetEnded.resolver
    slots := ⟨held true 4100 0 (voice .releasingNormal .lead 60), held true 900 0 (voice .releasingNormal (.harmony 0) 60),
      held true 900 0 (voice .releasingNormal (.harmony 1) 60), held true 2600 0 (voice .releasingNormal .lead 60),
      held true 14000 0 (voice .releasingNormal .lead 60), held true 7000 0 (voice .releasingNormal (.harmony 0) 60),
      held true 1800 0 (voice .releasingNormal (.harmony 1) 60), held true 1500 0 (voice .releasingNormal (.harmony 2) 60)⟩ }

/-- A FREE slot to take, a slot to steal, and no READY bank. -/
theorem witness_OnsetEndStartsLead :
    (∀ s ∈ [onsetEnded, crowded],
      s.Running ∧ (∀ d : Fin 4, s.firing d = none) ∧ s.breath.articulation = .onset ∧ s.breath.onsetEnding = true ∧
        s.resolver.previous = some (.note 72) ∧
        s.resolver.leadNote = fold (s.resolver.taken + 12 * s.resolver.octaveShift + s.resolver.transpose) ∧
        s.bank s.banks.selector = .ready { number := 0, params := factoryProgram } ∧ ∀ r : Fin 3, (s.rank r).slot = none) ∧
      onsetEnded.Takes 0 ∧ crowded.Takes 1 ∧
      (let s := { onsetEnded with banks := Banks.reset }
       s.Running ∧ (∀ d : Fin 4, s.firing d = none) ∧ s.breath.articulation = .onset ∧ s.breath.onsetEnding = true ∧
         s.currentProgram = none) :=
  ⟨by decide +kernel, .inl (by decide +kernel),
    .inr ⟨by decide +kernel, by decide +kernel, by decide +kernel⟩, by decide +kernel⟩

/-- A loss while sounding, in onset before a capture, and with no image. -/
theorem witness_SensorLossEndsNote :
    let at' := fun s : State => { s with sensor := { Sensor.reset with receiver := .receiving, missingTimer := 8 } }
    ∀ s ∈ [at' sounding, at' (setAnnounced 0 true (claimQueued 1 20)), at' (articulated .onset 1 { ready with breath := Breath.reset }), at' starting],
      s.Running ∧ s.sensor.receiver = .receiving ∧ s.sensor.missingTimer = 8 := by decide +kernel

/-- A bank B that waits for its last voice, which ends at this boundary. -/
def lastVoice : State :=
  { sounding with
    banks := { sounding.banks with b := .pending 5 (some { number := 7, params := factoryProgram }) }
    slots := ⟨held true 6000 8500 (voice .sounding .lead 69), held false 0 0 (voice .provisional (.harmony 0) 64),
      held true 900 5001 (voice (.releasingWithdraw none) (.harmony 1) 62),
      held true 900 619 (voice (.releasingWithdraw (some 626)) (.harmony 1) 62),
      held true 900 0 { voice .releasingNormal (.harmony 1) 62 with bank := .bankB }, free, free, free⟩ }

theorem witness_BoundaryMovesGains : lastVoice.Running ∧ lastVoice.Quiet := by decide +kernel

/-- A candidate of the map and one of the own slots; none; a root settling at its fifteenth and due at its sixteenth boundary. -/
theorem witness_RootFollowsSection :
    (heard 62 lastVoice).Running ∧ (heard 62 lastVoice).Quiet ∧ ready.Running ∧ ready.Quiet ∧
      (let s := { lastVoice with pitch := { Pitch.reset with root := some 55, previousRoot := some 69, settleCount := 15 } }
       s.Running ∧ s.Quiet) ∧
      (let s := { lastVoice with pitch := { Pitch.reset with root := some 55, previousRoot := some 69, settleCount := 16 } }
       s.Running ∧ s.pitch.settleCount = 16) := by
  and_intros <;> decide +kernel

/-- A glide of 250 steps a block, and a root that does not settle at this boundary. -/
theorem witness_BoundaryComposesPitch :
    let s := { lastVoice with
      banks := { lastVoice.banks with a := .ready { number := 0, params := { factoryProgram with portamento := 250 } } }
      slots := lastVoice.slots.set 0 (held true 6000 8500 { voice .sounding .lead 72 with baseCurrent := 69000 }) }
    s.Running ∧ s.Quiet ∧ (after .audioBlockBoundary s).pitch.settleCount < 16 := by decide +kernel

theorem witness_BoundaryAdvancesTimers :
    ∀ s ∈ [claiming 1 20 .queued, claiming 1 20 .window, claiming 1 20 .localPending, lineAt .joining 199 0 0,
        lineAt .listenOnly 0 7 96, setStation 3 { present := true, age := 199 } ready, waiting],
      s.Running ∧ s.Quiet := by decide +kernel

/-- The four settings once a boundary has passed, silent, without an image, and before the boundary; a transpose while a lead sounds, with
a rank that holds a claim and with no rank enabled. -/
theorem witness_SettingsTakenAtBoundary :
    (met.Running ∧ met.pitch.settleCount < 16 ∧ met.panel.transposeDue = true ∧ met.panel.waitTranspose = some (-12) ∧
      met.image?.isSome = true ∧ met.breath.articulation ≠ .sounding ∧ met.panel.tuningDue = true ∧
      met.panel.waitTuning = some 500 ∧ met.panel.keyDue = true ∧ met.panel.waitKey = some (7, 2741)) ∧
    (let s := { met with loader := { met.loader with image := .fault } }
     s.Running ∧ s.image? = none ∧ s.panel.transposeDue = true) ∧
    (∀ on ∈ [true, false],
      let s := claimQueued 1 20
      let s := after .audioBlockBoundary { s with panel := { Panel.reset with waitTranspose := some 12 },
                                                  harmony := { s.harmony with master := on } }
      s.Running ∧ s.pitch.settleCount < 16 ∧ s.image?.isSome = true ∧ s.panel.transposeDue = true ∧
        s.panel.waitTranspose = some 12 ∧ s.breath.articulation = .sounding ∧ s.leadTag = some 0 ∧ (s.voice 0).isSome = true ∧
        s.line.state = .active ∧ s.enabled 0 = on ∧
        fold (s.resolver.taken + 12 * s.resolver.octaveShift + 12) ≠ s.resolver.leadNote) ∧
    (waiting.pitch.settleCount < 16 ∧ waiting.panel.transposeDue = false ∧ waiting.panel.tuningDue = false ∧
      waiting.panel.keyDue = false ∧ waiting.panel.ranksDue = false) := by and_intros <;> decide +kernel

/-- R103: a plan that finds nothing withdraws the slot the rank kept, its announced tag's NOTE_END queued. -/
theorem test_exhausted_plan_withdraws :
    let t := plan 0 2 true (setAnnounced 1 true (claiming 1 20 .idle))
    (t.rank 0).stage = .exhausted ∧ (t.rank 0).slot = none ∧
      (t.voice 1).map Voice.state = some (.releasingWithdraw none) ∧
      t.line.queue.map Queued.record = [.noteEnd 1] := by decide +kernel

/-- A plan of rank 1 whose first candidate 64 the map holds, with a slot to take and with a slot kept; and one with nothing left. -/
theorem witness_PlanClaimsFirstEligible :
    let s := heard 64 (claiming 1 20 .idle)
    s.leadVoice = some (voice .sounding .lead 60) ∧
      (sectionProgram.rankPrograms.get 0).intervals.drop 0 = [4] ++ 7 :: [] ∧
      (∃ e ∈ s.map.entries, e.note = fold (60 + 4)) ∧
      ((7 : Int) ≠ 0 ∧ s.harmony.scale.getLsbD (((fold (60 + 7) : Int) - s.harmony.key) % 12).toNat = true ∧
        (∀ e ∈ s.map.entries, e.note ≠ fold (60 + 7)) ∧
        (∀ u v, s.voice u = some v → v.releasing = false → v.note = fold (60 + 7) → v.role = .harmony 0) ∧
        fold (60 + 7) ∉ (s.rank 0).refused) ∧
      s.Takes 2 ∧ s.rankTag 0 = some 1 ∧ s.voice 1 = some (voice .provisional (.harmony 0) 64) ∧ s.line.state = .active ∧
      (sectionProgram.rankPrograms.get 0).intervals.drop 2 = [] ∧
      (∀ announced ∈ [true, false], ((setAnnounced 1 announced s).slot 1).announced = announced ∧
        (setAnnounced 1 announced s).leadVoice = s.leadVoice ∧ (setAnnounced 1 announced s).rankTag 0 = some 1) ∧
      s.rankTag 1 = none :=
  ⟨by decide +kernel, by decide +kernel, by decide +kernel,
    ⟨by decide +kernel, by decide +kernel, by decide +kernel,
      each_voice (p := fun _ v => v.releasing = false → v.note = fold (60 + 7) → v.role = .harmony 0) (by decide +kernel),
      by decide +kernel⟩,
    .inl (by decide +kernel), by decide +kernel, by decide +kernel, by decide +kernel, by decide +kernel, by decide +kernel,
    by decide +kernel⟩

theorem witness_ClaimTimersDecide :
    (let s := claimQueued 1 20
     let s := setRank 0 { s.rank 0 with queuedAge := 10 } s
     s.Running ∧ (s.rank 0).stage = .queued ∧ (s.rank 0).queuedAge = 10) ∧
    (let s := claiming 1 20 .window
     let s := setRank 0 { s.rank 0 with windowAge := 4 } s
     s.Running ∧ (s.rank 0).stage = .window ∧ (s.rank 0).windowAge = 4 ∧ (s.rank 0).claim = some { number := 20, note := 64 } ∧
       (s.rank 0).slot = some 1 ∧ s.voice 1 = some (voice .provisional (.harmony 0) 64)) ∧
    (let s := heard 67 (due (claiming 4 87 .localPending))
     s.Running ∧ (s.rank 0).stage = .localPending ∧ (s.rank 0).localDue = true ∧ s.pitch.settleCount < 16 ∧
       (∀ e ∈ s.map.entries, e.note ≠ 64) ∧ (s.rank 0).claim = some { number := 87, note := 64 }) := by decide +kernel

/-- A rank at its last position. -/
def atLast (s : State) : State := setRank 0 { s.rank 0 with position := 1 } s

/-- A rank with a candidate left and one at its last position, its tag announced and not. -/
theorem witness_RefusedClaimYields :
    let at' := fun s : State => heard 64 (due s)
    (∀ s ∈ [at' (claiming 4 87 .localPending), at' (atLast (claiming 4 87 .localPending)),
        at' (setAnnounced 1 true (claiming 4 87 .localPending))],
      s.Running ∧ s.pitch.settleCount < 16 ∧ (s.rank 0).stage = .localPending ∧ (s.rank 0).localDue = true ∧
        (s.rank 0).claim = some { number := 87, note := 64 } ∧ (∃ e ∈ s.map.entries, e.note = 64) ∧
        (s.rank 0).slot = some 1 ∧ s.voice 1 = some (voice .provisional (.harmony 0) 64) ∧
        (voice .provisional (.harmony 0) 64).releasing = false ∧ s.leadVoice = some (voice .sounding .lead 60)) ∧
      ((sectionProgram.rankPrograms.get 0).intervals.length ≤ ((atLast (claiming 4 87 .localPending)).rank 0).position + 1) ∧
      ¬ (sectionProgram.rankPrograms.get 0).intervals.length ≤ ((claiming 4 87 .localPending).rank 0).position + 1 := by
  and_intros <;> decide +kernel

theorem witness_LineTimersExpire :
    ((lineAt .joining 200 0 0).Running ∧ (lineAt .joining 200 0 0).line.queue = []) ∧
      ((lineAt .listenOnly 0 8 0).Running ∧ (lineAt .listenOnly 0 8 0).line.queue = []) ∧
      (∀ rs ∈ [[Record.roster], [Record.noteEnd 0]],
        let s := queueOf rs { ready with line := { ready.line with rosterTimer := some 64 } }
        s.Running ∧ s.line.state = .active ∧ s.line.rosterTimer = some 64) := by decide +kernel

/-- Fifteen NOTE, CLAIM, ROSTER and HELD records, and a sixteenth. -/
def nearlyFull : List Record :=
  [0, 1, 2, 3, 4, 6, 7].map Record.noteEnd ++ List.replicate 4 (.held 0 1 60 .sounding) ++
    [.claim 0 1 60, .claim 1 2 60, .claim 2 3 60, .roster]

/-- Room for one, a full queue with a HELD to give way, a record to replace; and a line that is not ACTIVE. -/
theorem witness_AdmissionReplacesOrJoins :
    (queueOf nearlyFull ready).line.queue.length = 15 ∧
      (queueOf nearlyFull ready).line.queue.Pairwise (fun a b => a.record.cls ≤ b.record.cls) ∧
      (∀ y ∈ (queueOf nearlyFull ready).line.queue, y.record.isNote 5 = false) ∧
      (let full := [0, 1, 2, 3, 4, 6, 7].map Record.noteEnd ++ List.replicate 5 (.held 0 1 60 .sounding) ++
         [.claim 0 1 60, .claim 1 2 60, .claim 2 3 60, .roster]
       (queueOf full ready).line.queue.length = 16 ∧
         (queueOf full ready).line.queue = (queueOf full ready).line.queue.take 11 ++
           Queued.fresh (.held 0 1 60 .sounding) :: (queueOf full ready).line.queue.drop 12 ∧
         ∀ y ∈ (queueOf full ready).line.queue.drop 12, y.record.isHeld = false) ∧
      (let full := [0, 1, 2, 3, 4, 5, 6, 7].map Record.noteEnd ++ List.replicate 5 (.held 0 1 60 .sounding) ++
         [.claim 0 1 60, .claim 1 2 60, .claim 2 3 60]
       (queueOf full ready).line.queue.length = 16 ∧
         (queueOf full ready).line.queue = (queueOf full ready).line.queue.take 12 ++
           Queued.fresh (.held 0 1 60 .sounding) :: (queueOf full ready).line.queue.drop 13 ∧
         (∀ y ∈ (queueOf full ready).line.queue, y.record ≠ .roster) ∧
         ∀ y ∈ (queueOf full ready).line.queue.drop 13, y.record.isHeld = false) ∧
      State.reset.line.state ≠ .active := by decide +kernel

theorem witness_TransmitStartTakesHead :
    ∀ r ∈ [Record.noteStart 7 127 .harmony 3, .noteEnd 0, .held 4 87 64 .sounding, .claim 2 255 0, .roster],
      let s := queueOf [r] (claiming 1 20 .sounding)
      s.Running ∧ s.Quiet ∧ s.line.state = .active ∧ s.line.queue = Queued.fresh r :: [] ∧ s.line.underWay = none := by decide +kernel

theorem witness_ArbitrationFollowsHeader :
    let s := driving [.claim 0 40 67] ready
    s.Running ∧ s.Quiet ∧ s.line.underWay = some (.claim 40 67) ∧
      (headerByte 3 (.noteStart 0 57 .lead 0)).toNat < (headerByte s.power.station (.claim 40 67)).toNat := by decide +kernel

/-- Counters of 87 and 88, a removed record, a retry at 0 and 1 abandonments, and a third one. -/
theorem witness_BitErrorAbandonsFrame :
    let s := fun e a : Nat =>
      let d := driving [.claim 0 20 64] (claiming 1 20 .queued)
      { d with line := { d.line with errorCounter := e, queue := d.line.queue.map fun y => { y with abandons := a } } }
    (∀ e ∈ [87, 88, 255], (s e 0).Running ∧ (s e 0).Quiet ∧ (s e 0).line.underWay = some (.claim 20 64)) ∧
      96 ≤ min 255 (88 + 8) ∧ ¬ 96 ≤ min 255 (87 + 8) ∧
      (∀ a ∈ [0, 1, 2], (s 87 a).line.queue = [] ++ { record := .claim 0 20 64, abandons := a, underWay := true } :: []) ∧
      (after (.staleClaim 0) (setRank 0 { (s 87 0).rank 0 with queuedAge := 10 } (s 87 0))).line.queue = [] ∧
      (after (.staleClaim 0) (setRank 0 { (s 87 0).rank 0 with queuedAge := 10 } (s 87 0))).line.underWay = some (.claim 20 64) := by
  decide +kernel

theorem witness_OwnCompletionActs :
    (∀ r ∈ [Record.noteStart 1 64 .harmony 0, .noteEnd 0, .held 4 87 64 .sounding, .claim 0 20 64, .claim 0 19 64, .roster],
      (driving [r] (claiming 1 20 .queued)).Running ∧ (driving [r] (claiming 1 20 .queued)).Quiet ∧
        (driving [r] (claiming 1 20 .queued)).line.underWay.isSome = true) ∧
      ((driving [.claim 0 20 64] (claiming 1 20 .queued)).rank 0).stage = .queued ∧
      ((driving [.claim 0 20 64] (claiming 1 20 .queued)).rank 0).claim = some { number := 20, note := 64 } := by decide +kernel

/-- Broken bits, counted and own; discarded frames for a CRC, a kind, a length and a class, for tags, a station, notes and a reason beyond
their ranges; the own frame stopped at a length of 255; a DISABLED line; a good frame. -/
theorem witness_BadFramesAreCountedOnly :
    (ready.Running ∧ ready.Quiet ∧ ready.line.state ≠ .disabled ∧ ready.line.readingAbandoned = false) ∧
      readBits [true, false, true] = .broken ∧
      (let s := after .bitError (driving [.noteEnd 2] ready)
       s.Running ∧ s.Quiet ∧ s.line.state ≠ .disabled ∧ s.line.readingAbandoned = true) ∧
      (verdict [10, 255] = .discard ∧ allowedLength 2 255 = some false) ∧
      (∀ frame ∈ [([9, 3, 8, 60, 2] : List Byte), [9, 3, 0, 128, 2], [74, 4, 8, 1, 60, 0], [75, 4, 4, 1, 60, 2], [140, 2, 1, 128],
          [205, 4, 1, 8, 60, 2]], verdict (frame ++ crcBytes frame) = .discard) ∧
      verdict [9, 3, 0, 61, 2, 66, 22] = .discard ∧ (State.reset.Quiet ∧ State.reset.line.state = .disabled) ∧
      [66, 22] ≠ crcBytes (9 :: 3 :: [0, 61, 2]) ∧ (15 : Byte).toNat % 8 ∉ [1, 2, 3, 4, 5] ∧
      ((73 : Byte).toNat % 8 = 1 ∧ (73 : Byte).toNat / 64 ≠ 0) ∧ ((221 : Byte).toNat % 8 = 5 ∧ 8 < (9 : Byte).toNat) ∧
      verdict noteStartBytes = .good { station := 1, payload := .noteStart 0 60 .lead 1 } := by and_intros <;> decide +kernel

/-- From ACTIVE and from JOINING. -/
theorem witness_DuplicateFrameHoldsLine :
    verdict noteStartBytes = .good { station := 1, payload := .noteStart 0 60 .lead 1 } ∧
      ∀ s ∈ [claimQueued 1 20, lineAt .joining 5 0 0], s.Running ∧ s.Quiet ∧ s.line.state ≠ .disabled ∧ s.power.station = 1 := by
  decide +kernel

/-- The bytes of a frame of a station. -/
def sent (st : Fin 8) (p : Payload) : List Byte := LineFrame.bytes { station := st, payload := p }

/-- A note no rank has; and a rank on the note in each stage that holds a claim, with a candidate left and at its last position. -/
theorem witness_PeerNoteStartPlacesAndYields :
    (∀ st ∈ [(0 : Fin 8), 7], ∀ role ∈ [LineRole.lead, .harmony],
      verdict (sent st (.noteStart 7 64 role 3)) = .good { station := st, payload := .noteStart 7 64 role 3 }) ∧
      (let s := heard 64 ready
       s.Running ∧ s.Quiet ∧ s.line.state ≠ .disabled ∧ s.power.station = 1 ∧ s.map.entries.Pairwise (fun a b => a.key < b.key) ∧
         ∀ r : Fin 3, (s.rank r).claims 64 = false) ∧
      (∀ stage ∈ [Stage.queued, .window, .localPending, .sounding], ∀ s ∈ [claiming 4 87 stage, atLast (claiming 4 87 stage)],
        s.Running ∧ s.Quiet ∧ s.line.state ≠ .disabled ∧ s.power.station = 4) ∧
      (∀ stage ∈ [Stage.queued, .window, .localPending, .sounding], ∀ s ∈ [claiming 4 87 stage, atLast (claiming 4 87 stage)],
        (s.rank 0).stage = stage ∧
          (s.rank 0).claim = some { number := 87, note := 64 } ∧ (∀ q : Fin 3, q ≠ 0 → (s.rank q).claims 64 = false) ∧
          s.leadVoice = some (voice .sounding .lead 60) ∧ (∀ w ∈ (s.rank 0).slot, ∀ v ∈ s.voice w, v.role = .harmony 0)) ∧
      (sectionProgram.rankPrograms.get 0).intervals.length ≤ ((atLast (claiming 4 87 .queued)).rank 0).position + 1 := by
  and_intros <;> decide +kernel

theorem witness_NoteEndAndExpiryRemoveEntries :
    verdict (sent 3 (.noteEnd 2)) = .good { station := 3, payload := .noteEnd 2 } ∧
      ((heard 64 ready).Running ∧ (heard 64 ready).Quiet ∧ (heard 64 ready).line.state ≠ .disabled ∧
        (heard 64 ready).power.station ≠ 3) ∧
      (let s := setStation 3 { present := true, age := 200 } (heard 64 ready)
       s.Running ∧ (s.map.stations.get 3).present = true ∧
         (s.map.stations.get 3).age = 200) := by decide +kernel

/-- A ROSTER of none, one that lists a tag twice, and one of eight entries; with no claim, and with a rank on a note it lists. -/
theorem witness_PeerRosterReplacesEntries :
    let entry := fun t : Fin 8 => fun n : Nat => ({ tag := t, note := n, role := .lead, levelClass := 3 } : RosterEntry)
    (∀ es ∈ [[], [entry 2 60, entry 2 61], allEight.map fun t => entry t 127],
      verdict (sent 3 (.roster es)) = .good { station := 3, payload := .roster es }) ∧
      (∀ s ∈ [heard 64 ready, heard 67 (claiming 4 87 .window)],
        s.Running ∧ s.Quiet ∧ s.line.state ≠ .disabled ∧ s.power.station ≠ 3 ∧
          s.map.entries.Pairwise (fun a b => a.key < b.key)) ∧
      (∀ r : Fin 3, ((heard 64 ready).rank r).claim = none) ∧
      (claiming 4 87 .window).yieldsTo 0 { station := 3, tag := 1, note := 64, role := .harmony, levelClass := 3 } = true ∧
      (claiming 1 20 .sounding).yieldsTo 0 { station := 3, tag := 1, note := 64, role := .harmony, levelClass := 3 } = false := by
  decide +kernel

/-- A claim on the sounding lead's note, on a note in WINDOW, on a note nobody has; and a QUEUED rank at its last position. -/
theorem witness_PeerClaimYieldsOrIsAnswered :
    (∀ n ∈ [60, 64, 72], verdict (sent 4 (.claim 87 n)) = .good { station := 4, payload := .claim 87 n }) ∧
      (let s := claiming 1 20 .window
       s.Running ∧ s.Quiet ∧ s.line.state ≠ .disabled ∧ s.power.station ≠ 4 ∧ s.line.queue.length < 16 ∧
         ∀ r : Fin 3, (s.rank r).stage ≠ .queued ∧ (s.rank r).stage ≠ .localPending) ∧
      (let s := atLast (claimQueued 1 20)
       (s.Running ∧ s.Quiet ∧ s.line.state ≠ .disabled) ∧ (s.rank 0).stage = .queued ∧
         (s.rank 0).claim = some { number := 20, note := 64 } ∧
         (∀ q : Fin 3, q ≠ 0 → (s.rank q).claims 64 = false) ∧
         (∀ u v, s.voice u = some v → v.state = .sounding → v.note ≠ 64) ∧
         s.leadVoice = some (voice .sounding .lead 60) ∧
         (∀ w ∈ (s.rank 0).slot, ∀ v ∈ s.voice w, v.role = .harmony 0) ∧
         ((s.programOfBank .bankA).rankPrograms.get 0).intervals.length ≤ (s.rank 0).position + 1) :=
  ⟨by decide +kernel, by and_intros <;> decide +kernel, by decide +kernel, by decide +kernel, by decide +kernel, by decide +kernel,
    each_voice (p := fun _ v => v.state = .sounding → v.note ≠ 64) (by decide +kernel), by decide +kernel, by decide +kernel,
    by decide +kernel⟩

/-- A HELD for another station, one of a retired number, and one that names a rank in WINDOW at its last position. -/
theorem witness_PeerHeldYieldsMatchingRank :
    (∀ a ∈ [(0 : Fin 8), 4], ∀ k ∈ [(86 : Byte), 87],
      verdict (sent 1 (.held a k 64 .sounding)) = .good { station := 1, payload := .held a k 64 .sounding }) ∧
      (let s := atLast (claiming 4 87 .window)
       s.Running ∧ s.Quiet ∧ s.line.state ≠ .disabled ∧ s.power.station = 4 ∧
         (s.rank 0).claim = some { number := 87, note := 64 } ∧ (s.rank 0).stage ∈ [Stage.window, .localPending, .sounding] ∧
         s.leadVoice = some (voice .sounding .lead 60) ∧
         (∀ w ∈ (s.rank 0).slot, ∀ v ∈ s.voice w, v.role = .harmony 0) ∧
         ((s.programOfBank .bankA).rankPrograms.get 0).intervals.length ≤ (s.rank 0).position + 1) := by
  and_intros <;> decide +kernel

/-- The first and the last sample of a block, with and without an image. -/
theorem witness_SamplePeriod :
    ∀ s ∈ [sounding, { sounding with audio := { Audio.reset with sampleIndex := 47 } }, starting], s.Running ∧ s.Quiet := by
  decide +kernel

theorem witness_WaveLookupInterpolates :
    (List.replicate 256 (-32768 : Int)).length = 256 ∧
      ∀ x ∈ List.replicate 256 (-32768 : Int), -32768 ≤ x ∧ x ≤ 32767 := by decide +kernel

theorem witness_GainRampAndVoiceOutput :
    (sounding.slot 0).voice.isSome = true ∧ (sounding.slot 1).voice = none ∧
      (let img := { image with waves := List.replicate 16 (List.replicate 256 (32767 : Int)) }
       (∀ w ∈ img.waves, w.length = 256 ∧ ∀ x ∈ w, -32768 ≤ x ∧ x ≤ 32767) ∧ img.waves.length = 16) ∧
      (sounding.programOfBank .bankA).softWave ≤ 15 ∧ (sounding.programOfBank .bankA).brightWave ≤ 15 ∧
      (sounding.programOfBank .bankA).depth ≤ 32767 ∧ sounding.breath.level ≤ 32767 := by decide +kernel

/-- An IDLE and another message, with the in FIFO empty and full. -/
theorem witness_PanelTransferMovesBothWays :
    (message 0 0 0).b0 = 0 ∧ (message 1 0 0).b0 ≠ 0 ∧
      (let full := { ready with panel := { Panel.reset with inFifo := List.replicate 8 (message 1 99 0)
                                                            outFifo := List.replicate 8 (.refused .badMessage 9) } }
       full.Running ∧ full.Quiet ∧ full.panel.inFifo.length = 8) ∧
      ready.Running ∧ ready.Quiet ∧ ready.panel.inFifo.length ≤ 8 := by
  and_intros <;> decide +kernel

/-- Each setting with its extreme operands, an empty scale set, an unknown kind, and an out FIFO that is full or has four places. -/
theorem witness_SettingsWaitOrAreRefused :
    (∀ m ∈ [message 2 128 0, message 3 128 0, message 4 255 15, message 4 0 240, message 5 255 0, message 11 0 0],
      (asked m ready).Running ∧ (asked m ready).panel.inFifo = m :: [] ∧ (asked m ready).panel.outFifo.length < 8) ∧
      scaleSet 15 0 ≠ 0 ∧ scaleSet 240 0 = 0 ∧
      ∀ k ∈ [5, 8], let s := { ready with panel := { Panel.reset with inFifo := [message 7 0 0],
                                                                      outFifo := List.replicate k (.refused .badMessage 9) } }
        s.Running ∧ 4 < s.panel.outFifo.length := by decide +kernel

/-- The rows of R69: refused; the current bank READY with n; the other; a PENDING bank that keeps n; none, with the other bank
referenced and not. -/
theorem witness_ProgramTakesFirstRow :
    let s := fun x : BankState => asked (message 1 1 0) { ready with banks := { ready.banks with b := x } }
    let other := { ready with
      slots := ready.slots.set 5 (held true 900 0 { voice .releasingNormal (.harmony 0) 60 with bank := .bankB }) }
    (∀ x ∈ [BankState.empty, .ready { number := 1, params := factoryProgram }, .loading 0,
        .pending 0 (some { number := 1, params := factoryProgram })],
      (s x).Running ∧ (s x).panel.inFifo = message 1 1 0 :: [] ∧ (s x).panel.outFifo.length < 8 ∧ (s x).programCount = 2) ∧
      (asked (message 1 2 0) ready).programCount ≤ (message 1 2 0).b1.toNat ∧
      (asked (message 1 0 0) ready).bank .bankA = .ready { number := 0, params := factoryProgram } ∧
      (asked (message 1 1 0) other).referenced .bankB = true := by decide +kernel

/-- A part with an event standing and a message of a kind at the head of its in FIFO. -/
def messaged (k : Byte) : State := asked (message k 255 255) (raise .gestureReport (claimQueued 1 20))

/-- A STATUS with four places; a SECTION; a report before, at and after the one entry; none running, a full out FIFO, a message that
waits. -/
theorem witness_ReportsPlaceRecords :
    (let s := { messaged 7 with panel := { (messaged 7).panel with outFifo := List.replicate 4 (.refused .badMessage 9) } }
     s.Running ∧ s.panel.inFifo = message 7 255 255 :: [] ∧ s.panel.outFifo.length ≤ 4 ∧ s.resolver.leadNote ≤ 127 ∧
       (∀ n ∈ s.pitch.root, n ≤ 127) ∧ s.banks.a.code.2 ≤ 15 ∧ s.banks.b.code.2 ≤ 15) ∧
    ((messaged 8).Running ∧ (messaged 8).panel.inFifo = message 8 255 255 :: [] ∧ (messaged 8).panel.outFifo.length ≤ 8) ∧
    (let s := fun k : Option Nat => { heard 64 ready with panel := { Panel.reset with report := some { lastKey := k, count := 0 } } }
     (∀ k ∈ [none, some 25, some 26], (s k).Running ∧ (s k).panel.outFifo.length < 8 ∧ (s k).panel.inFifo = []) ∧
       (s none).map.entries = [] ++ { station := 3, tag := 2, note := 64, role := .harmony, levelClass := 0 } :: [] ∧
       ∀ x ∈ (s (some 26)).map.entries, x.key ≤ 26) ∧
    ready.panel.report = none ∧ 8 < (readMessage (message 7 0 0)).room + 5 := by and_intros <;> decide +kernel

theorem witness_AckRemovesReported :
    (messaged 9).Running ∧ (messaged 9).panel.inFifo = message 9 255 255 :: [] ∧ (messaged 9).panel.outFifo.length ≤ 8 ∧
      (after .status (asked (message 7 0 0) (messaged 9))).panel.events.gestureReport = .reported := by decide +kernel

theorem witness_ReloadRestartsBlocks :
    (messaged 10).Running ∧ (messaged 10).panel.inFifo = message 10 255 255 :: [] ∧ (messaged 10).panel.outFifo.length ≤ 8 := by
  decide +kernel

/-- A voice of each state under an ACTIVE and a DISABLED line. -/
theorem witness_AllOffReleasesVoices :
    ∀ l ∈ [LineState.active, .disabled],
      let s := asked (message 6 0 0) { lastVoice with line := { lastVoice.line with state := l } }
      s.Running ∧ s.panel.inFifo = message 6 0 0 :: [] ∧ s.panel.outFifo.length ≤ 8 := by decide +kernel

/-- A pitch at each end of the range and at the ends of an octave. -/
theorem witness_IncrementInterpolates : ∀ p ∈ [0, 11999, 12000, 127999], p ≤ 127999 := by decide +kernel

/-- A full ROSTER with its fields at the ends of their ranges. -/
theorem witness_SentFrameIsReadBack :
    let f : LineFrame := { station := 7, payload := .roster (allEight.map fun t =>
      { tag := t, note := 127, role := .harmony, levelClass := 3 }) }
    match f.payload with
    | .noteStart _ n _ c => n ≤ 127 ∧ c ≤ 3
    | .noteEnd _ => True
    | .held _ _ n _ => n ≤ 127
    | .claim _ n => n ≤ 127
    | .roster es => es.length ≤ 8 ∧ ∀ e ∈ es, e.note ≤ 127 ∧ e.levelClass ≤ 3 := by
  show _ ≤ 8 ∧ ∀ e ∈ _, _
  decide

/-- A station in the middle of a section: a lead, a queued claim, a peer's entry. -/
def busy : State := refreshStation 3 (heard 64 (claimQueued 1 20))

theorem witness_StepKeepsSectionMap : busy.SectionMapOk ∧ step busy = .next (settle busy) := ⟨by decide +kernel, rfl⟩

theorem witness_StepKeepsSectionLine : busy.LineOk ∧ step busy = .next (settle busy) := ⟨by decide +kernel, rfl⟩

theorem witness_StepKeepsHarmony : busy.HarmonyOk ∧ step busy = .next (settle busy) := ⟨by decide +kernel, rfl⟩

theorem witness_StepKeepsBanks : busy.BanksOk ∧ step busy = .next (settle busy) := ⟨by decide +kernel, rfl⟩

theorem witness_StepKeepsVoices : busy.VoicesOk ∧ step busy = .next (settle busy) :=
  ⟨by and_intros <;> decide +kernel, rfl⟩

theorem witness_StepKeepsPitch : busy.PitchOk ∧ step busy = .next (settle busy) := ⟨by decide +kernel, rfl⟩

theorem witness_StepKeepsPorts : busy.PortsOk ∧ step busy = .next (settle busy) := ⟨by decide +kernel, rfl⟩

end Sys2Proof.Tests
end

/-!
The phase increment of a pitch (R91, R92). Within an octave the interpolated entry climbs from E[0] to E[1200]; the two ends of
the table stand in the ratio two to one, so that the shift of the next octave takes over at just the value where this one ends.
-/

namespace Sys2Proof.Machine

/-! ### The table (R90) -/

/-- One octave doubles the increment. -/
theorem incrementEntry_1200_eq : incrementEntry 1200 = 2 * incrementEntry 0 := by decide +kernel

theorem incrementEntry_1200_lt : incrementEntry 1200 < 2 ^ 31 := by decide +kernel

theorem incrementEntry_mono {j k : Nat} (hjk : j ≤ k) (hk : k ≤ 1200) : incrementEntry j ≤ incrementEntry k := by
  induction k, hjk using Nat.le_induction with
  | base => exact le_rfl
  | succ k _ ih => exact (ih (by omega)).trans (incrementEntry_lt_succ k hk).le

/-! ### The interpolated entry (R91) -/

theorem interpolatedEntry_zero (c : Nat) : interpolatedEntry c 0 = incrementEntry c := by
  simp [interpolatedEntry]

theorem interpolatedEntry_ten {c : Nat} (hc : c < 1200) : interpolatedEntry c 10 = incrementEntry (c + 1) := by
  have hrise := incrementEntry_lt_succ c hc
  simp only [interpolatedEntry]
  omega

theorem interpolatedEntry_mono (c : Nat) {f g : Nat} (h : f ≤ g) : interpolatedEntry c f ≤ interpolatedEntry c g := by
  unfold interpolatedEntry
  gcongr

theorem le_interpolatedEntry (c f : Nat) : incrementEntry c ≤ interpolatedEntry c f := Nat.le_add_right _ _

theorem interpolatedEntry_le {c f : Nat} (hc : c < 1200) (hf : f ≤ 10) :
    interpolatedEntry c f ≤ incrementEntry (c + 1) :=
  (interpolatedEntry_mono c hf).trans_eq (interpolatedEntry_ten hc)

theorem interpolatedEntry_le_last {c f : Nat} (hc : c < 1200) (hf : f ≤ 10) :
    interpolatedEntry c f ≤ incrementEntry 1200 :=
  (interpolatedEntry_le hc hf).trans (incrementEntry_mono hc le_rfl)

/-- The entry climbs with the tenths of a cent above the octave: within a cent by its fraction, and from cent to cent by the
table. -/
theorem interpolatedEntry_tenths_mono {m n : Nat} (hmn : m ≤ n) (hn : n < 12000) :
    interpolatedEntry (m / 10) (m % 10) ≤ interpolatedEntry (n / 10) (n % 10) := by
  rcases (Nat.div_le_div_right hmn : m / 10 ≤ n / 10).eq_or_lt with hsame | hlater
  · rw [hsame]
    exact interpolatedEntry_mono _ (by omega)
  · calc interpolatedEntry (m / 10) (m % 10)
      _ ≤ incrementEntry (m / 10 + 1) := interpolatedEntry_le (by omega) (by omega)
      _ ≤ incrementEntry (n / 10) := incrementEntry_mono hlater (by omega)
      _ ≤ interpolatedEntry (n / 10) (n % 10) := le_interpolatedEntry _ _

/-! ### The increment of a pitch (R92) -/

/-- The floor shift is a division by the power of two. -/
theorem incrementOf_eq_div (p : Nat) :
    incrementOf p = interpolatedEntry (p % 12000 / 10) (p % 12000 % 10) / 2 ^ (10 - p / 12000) :=
  Nat.shiftRight_eq_div_pow _ _

theorem incrementOf_le_last (p : Nat) : incrementOf p ≤ incrementEntry 1200 := by
  rw [incrementOf_eq_div]
  exact (Nat.div_le_self _ _).trans (interpolatedEntry_le_last (by omega) (by omega))

theorem incrementOf_mono_of_same_octave {p q : Nat} (hpq : p ≤ q) (ho : p / 12000 = q / 12000) :
    incrementOf p ≤ incrementOf q := by
  rw [incrementOf_eq_div, incrementOf_eq_div, ho]
  exact Nat.div_le_div_right (interpolatedEntry_tenths_mono (by omega) (by omega))

/-- Every pitch of a lower octave stays at or below the first pitch of a higher one: the table's last entry under the lower octave's
shift is its first entry under the shift of the next. -/
theorem incrementOf_mono_of_lower_octave {p q : Nat} (ho : p / 12000 < q / 12000) (hq : q ≤ 127999) :
    incrementOf p ≤ incrementOf q := by
  have hshift : 2 ^ (10 - p / 12000) = 2 ^ (9 - p / 12000) * 2 := by
    rw [← pow_succ]; congr 1; omega
  rw [incrementOf_eq_div p, incrementOf_eq_div q]
  calc interpolatedEntry (p % 12000 / 10) (p % 12000 % 10) / 2 ^ (10 - p / 12000)
    _ ≤ incrementEntry 1200 / 2 ^ (10 - p / 12000) :=
        Nat.div_le_div_right (interpolatedEntry_le_last (by omega) (by omega))
    _ = incrementEntry 0 / 2 ^ (9 - p / 12000) := by
        rw [hshift, incrementEntry_1200_eq, Nat.mul_comm, Nat.mul_div_mul_right _ _ two_pos]
    _ ≤ incrementEntry 0 / 2 ^ (10 - q / 12000) :=
        Nat.div_le_div_left (Nat.pow_le_pow_right two_pos (by omega)) (by positivity)
    _ ≤ interpolatedEntry (q % 12000 / 10) (q % 12000 % 10) / 2 ^ (10 - q / 12000) :=
        Nat.div_le_div_right ((incrementEntry_mono (Nat.zero_le _) (by omega)).trans (le_interpolatedEntry _ _))

theorem incrementOf_mono {p q : Nat} (hpq : p ≤ q) (hq : q ≤ 127999) : incrementOf p ≤ incrementOf q := by
  rcases (Nat.div_le_div_right hpq : p / 12000 ≤ q / 12000).eq_or_lt with hsame | hlower
  · exact incrementOf_mono_of_same_octave hpq hsame
  · exact incrementOf_mono_of_lower_octave hlower hq

/-! ### Where a voice's increment is written (R89) -/

theorem State.composePitch_le (s : State) (base just : Int) : s.composePitch base just ≤ 127999 := by
  unfold State.composePitch clampInt
  omega

theorem State.composed_increment (s : State) (v : Voice) : (s.composed v).increment = incrementOf (s.composed v).pitch := rfl

theorem State.composed_pitch_le (s : State) (v : Voice) : (s.composed v).pitch ≤ 127999 := s.composePitch_le _ _

/-- Settles O51: the table rises within an octave, and its two ends meet where the octave's shift changes. -/
theorem incrementInterpolates : Obligations.IncrementInterpolates := by
  refine ⟨fun p hp => ?_, fun p q => incrementOf_mono, fun s v => ?_⟩
  · intro o r c frac e
    have hc : c < 1200 := by omega
    have hfrac : frac ≤ 9 := by omega
    have he : e = interpolatedEntry c frac := rfl
    have hlast : e ≤ incrementEntry 1200 := interpolatedEntry_le_last hc (by omega)
    refine ⟨by omega, by omega, hfrac, incrementEntry_lt_succ c hc, fun h0 => ?_, ?_, hlast,
      hlast.trans_lt incrementEntry_1200_lt, incrementOf_eq_div p, incrementOf_le_last p⟩
    · rw [he, h0, interpolatedEntry_zero]
    · exact (incrementEntry_mono (Nat.zero_le c) hc.le).trans (le_interpolatedEntry c frac)
  · exact ⟨s.composed_increment v, s.composed_increment _, s.composed_pitch_le v, s.composed_pitch_le _⟩

end Sys2Proof.Machine

/-!
The wave lookup, the gain ramp and the output of a voice (R160, R163, R165, R166, R168). Each of the three moves from a start toward
a target by a share of their difference; the floor division of the lookup and of the blend and the truncating one of the ramp all keep
it between the two.
-/

namespace Sys2Proof.Machine

/-! ### A share of a difference -/

theorem shiftRight_eq_fdiv (x : Int) (n : Nat) : x >>> n = x.fdiv ((2 ^ n : Nat) : Int) := by
  rw [Int.shiftRight_eq_div_pow, Int.fdiv_eq_ediv_of_nonneg _ (Int.natCast_nonneg _)]

theorem shiftRight_int_eq_fdiv (x : Int) (n : Nat) : x >>> (n : Int) = x.fdiv ((2 ^ n : Nat) : Int) :=
  (Int.shiftRight_natCast_right x n).trans (shiftRight_eq_fdiv x n)

/-- The lookup's shift is a floor division, whether its count is read as a natural number (core Lean) or as an integer (Mathlib). -/
theorem shiftRight_8_eq_fdiv (x : Int) : x >>> (8 : Nat) = x.fdiv 256 ∧ x >>> (8 : Int) = x.fdiv 256 :=
  ⟨shiftRight_eq_fdiv x 8, shiftRight_int_eq_fdiv x 8⟩

/-- The same for the shift of the blend and of the voice output. -/
theorem shiftRight_15_eq_fdiv (x : Int) : x >>> (15 : Nat) = x.fdiv 32768 ∧ x >>> (15 : Int) = x.fdiv 32768 :=
  ⟨shiftRight_eq_fdiv x 15, shiftRight_int_eq_fdiv x 15⟩

/-- A product with a weight of at most `d` lies, over `d`, between nothing and the whole. -/
theorem share_ediv_mem {p w d : Int} (hp : 0 ≤ p) (hw : 0 ≤ w) (hwd : w ≤ d) (hd : 0 < d) :
    0 ≤ p * w / d ∧ p * w / d ≤ p :=
  ⟨Int.ediv_nonneg (mul_nonneg hp hw) hd.le,
    (Int.ediv_le_ediv hd (mul_le_mul_of_nonneg_left hwd hp)).trans_eq (Int.mul_ediv_cancel p hd.ne')⟩

/-- The same below zero, where the floor leaves the whole as the least value. -/
theorem neg_share_ediv_mem {p w d : Int} (hp : p ≤ 0) (hw : 0 ≤ w) (hwd : w ≤ d) (hd : 0 < d) :
    p ≤ p * w / d ∧ p * w / d ≤ 0 :=
  ⟨(Int.mul_ediv_cancel p hd.ne').symm.trans_le (Int.ediv_le_ediv hd (mul_le_mul_of_nonpos_left hwd hp)),
    Int.ediv_nonpos_of_nonpos_of_neg (mul_nonpos_of_nonpos_of_nonneg hp hw) hd⟩

/-- An interpolation with a floor division lies between its two ends. -/
theorem interpolate_mem (a b : Int) {w d : Int} (hw : 0 ≤ w) (hwd : w ≤ d) (hd : 0 < d) :
    min a b ≤ a + ((b - a) * w).fdiv d ∧ a + ((b - a) * w).fdiv d ≤ max a b := by
  rw [Int.fdiv_eq_ediv_of_nonneg _ hd.le]
  rcases le_total a b with hrise | hfall
  · have hshare := share_ediv_mem (sub_nonneg.2 hrise) hw hwd hd
    omega
  · have hshare := neg_share_ediv_mem (sub_nonpos.2 hfall) hw hwd hd
    omega

/-! ### The wave lookup (R163) -/

theorem wavePosition_le (phase : BitVec 32) : (phase >>> 24).toNat ≤ 255 := by
  rw [BitVec.toNat_ushiftRight, Nat.shiftRight_eq_div_pow]
  omega

theorem lookupWave_eq (table : List Int) (phase : BitVec 32) :
    lookupWave table phase = table.getD (phase >>> 24).toNat 0 +
      ((table.getD (((phase >>> 24).toNat + 1) % 256) 0 - table.getD (phase >>> 24).toNat 0) *
        (((phase >>> 16).toNat % 256 : Nat) : Int)).fdiv 256 := by
  simp only [lookupWave, shiftRight_8_eq_fdiv, BitVec.toNat_ushiftRight, Nat.shiftRight_eq_div_pow]

theorem lookupWave_between (table : List Int) (phase : BitVec 32) :
    let a := table.getD (phase >>> 24).toNat 0
    let b := table.getD (((phase >>> 24).toNat + 1) % 256) 0
    min a b ≤ lookupWave table phase ∧ lookupWave table phase ≤ max a b := by
  rw [lookupWave_eq]
  exact interpolate_mem _ _ (by omega) (by omega) (by omega)

/-- The position and the fraction are the upper half of the phase, so that two phases which agree there read the same. -/
theorem lookupWave_congr (table : List Int) {p q : BitVec 32} (h : p >>> 16 = q >>> 16) :
    lookupWave table p = lookupWave table q := by
  have hposition : ∀ r : BitVec 32, r >>> 24 = r >>> 16 >>> 8 := fun r => BitVec.shiftRight_add r 16 8
  rw [lookupWave_eq, lookupWave_eq, hposition p, hposition q, h]

theorem upper_append_ushiftRight (phase : BitVec 32) (low : BitVec 16) :
    (phase.extractLsb' 16 16 ++ low : BitVec 32) >>> 16 = phase >>> 16 := by
  ext i hi
  simp only [BitVec.getElem_ushiftRight, BitVec.getLsbD_append, BitVec.getLsbD_extractLsb']
  grind

/-- A sample read within a table of 16-bit samples. -/
theorem getD_mem_range {table : List Int} (hrange : ∀ x ∈ table, -32768 ≤ x ∧ x ≤ 32767) {i : Nat} (hi : i < table.length) :
    -32768 ≤ table.getD i 0 ∧ table.getD i 0 ≤ 32767 := by
  rw [List.getD_eq_getElem _ _ hi]
  exact hrange _ (List.getElem_mem hi)

theorem lookupWave_mem_range {table : List Int} (hlen : table.length = 256) (hrange : ∀ x ∈ table, -32768 ≤ x ∧ x ≤ 32767)
    (phase : BitVec 32) : -32768 ≤ lookupWave table phase ∧ lookupWave table phase ≤ 32767 := by
  obtain ⟨hlow, hhigh⟩ := lookupWave_between table phase
  have hi := wavePosition_le phase
  have hhere := getD_mem_range hrange (i := (phase >>> 24).toNat) (by omega)
  have hnext := getD_mem_range hrange (i := ((phase >>> 24).toNat + 1) % 256) (by omega)
  exact ⟨(le_min hhere.1 hnext.1).trans hlow, hhigh.trans (max_le hhere.2 hnext.2)⟩

/-! ### The advance and the output of a slot (R160, R168) -/

theorem advancePhase_phase_toNat {x : Slot} {v : Voice} (hv : x.voice = some v) :
    (advancePhase x).phase.toNat = (x.phase.toNat + v.increment) % 4294967296 := by
  simp [advancePhase, hv]

theorem State.slotOutput_of_free (s : State) (k : Nat) {x : Slot} (hx : x.voice = none) : s.slotOutput k x = 0 := by
  simp [State.slotOutput, hx]

theorem State.slotOutput_of_voice (s : State) (k : Nat) {x : Slot} {v : Voice} (hv : x.voice = some v) :
    s.slotOutput k x =
      (blend (lookupWave (s.wave (s.programOfBank v.bank).softWave) x.phase)
          (lookupWave (s.wave (s.programOfBank v.bank).brightWave) x.phase)
          (brightness s.breath.level (s.programOfBank v.bank).depth) *
        rampGain x.gainCurrent x.gainTarget k).fdiv 32768 := by
  simp only [State.slotOutput, hv, shiftRight_15_eq_fdiv]

/-- Settles O42: position and fraction are read off the phase's upper half, and the floor keeps the value between the two samples. -/
theorem waveLookupInterpolates : Obligations.WaveLookupInterpolates := by
  refine ⟨fun table phase => ?_, fun x v => advancePhase_phase_toNat, fun s k x v => s.slotOutput_of_voice k⟩
  intro i fr a b
  have hbetween := lookupWave_between table phase
  refine ⟨wavePosition_le phase, lookupWave_eq table phase, hbetween.1, hbetween.2, fun hlast => ?_, fun low => ?_,
    fun hlen hrange => lookupWave_mem_range hlen hrange phase⟩
  · simp [b, hlast]
  · exact lookupWave_congr table (upper_append_ushiftRight phase low)

/-! ### The gain ramp (R166) -/

/-- A rising ramp adds a share rounded down. -/
theorem rampGain_of_le {start target : Nat} (k : Nat) (h : start ≤ target) :
    rampGain start target k = start + ((target : Int) - start) * k / 48 := by
  have hproduct : 0 ≤ ((target : Int) - start) * k := mul_nonneg (by omega) (by omega)
  rw [rampGain, Int.tdiv_eq_ediv_of_nonneg hproduct]

/-- A falling ramp takes away a share rounded down. -/
theorem rampGain_of_ge {start target : Nat} (k : Nat) (h : target ≤ start) :
    rampGain start target k = start - ((start : Int) - target) * k / 48 := by
  have hproduct : 0 ≤ ((start : Int) - target) * k := mul_nonneg (by omega) (by omega)
  have hneg : ((target : Int) - start) * k = -(((start : Int) - target) * k) := by ring
  rw [rampGain, hneg, Int.neg_tdiv, Int.tdiv_eq_ediv_of_nonneg hproduct, ← sub_eq_add_neg]

theorem rampGain_last (start target : Nat) : rampGain start target 48 = target := by
  rw [rampGain, Nat.cast_ofNat, Int.mul_tdiv_cancel _ (by decide), add_sub_cancel]

theorem rampGain_flat (gain k : Nat) : rampGain gain gain k = gain := by
  simp [rampGain]

theorem rampGain_between (start target : Nat) {k : Nat} (hk : k ≤ 48) :
    ((min start target : Nat) : Int) ≤ rampGain start target k ∧ rampGain start target k ≤ ((max start target : Nat) : Int) := by
  rcases le_total start target with hrise | hfall
  · have hshare := share_ediv_mem (p := (target : Int) - start) (w := k) (d := 48) (by omega) (by omega) (by omega) (by omega)
    rw [rampGain_of_le k hrise]
    omega
  · have hshare := share_ediv_mem (p := (start : Int) - target) (w := k) (d := 48) (by omega) (by omega) (by omega) (by omega)
    rw [rampGain_of_ge k hfall]
    omega

theorem rampGain_mem_range {start target k : Nat} (hs : start ≤ 32767) (ht : target ≤ 32767) (hk : k ≤ 48) :
    0 ≤ rampGain start target k ∧ rampGain start target k ≤ 32767 := by
  have hbetween := rampGain_between start target hk
  omega

/-- A rising ramp runs at or below its line. -/
theorem rampGain_le_line {start target : Nat} (k : Nat) (h : start ≤ target) :
    (rampGain start target k - start) * 48 ≤ ((target : Int) - start) * k := by
  rw [rampGain_of_le k h, add_sub_cancel_left]
  exact Int.ediv_mul_le _ (by decide)

/-- A falling ramp runs at or above its line. -/
theorem rampGain_ge_line {start target : Nat} (k : Nat) (h : target ≤ start) :
    ((target : Int) - start) * k ≤ (rampGain start target k - start) * 48 := by
  have hfloor := Int.ediv_mul_le (((start : Int) - target) * k) (b := 48) (by decide)
  rw [rampGain_of_ge k h]
  linarith

/-- The gain current of the next block is the target of this one; a voice whose target is 0 may leave its slot FREE, at gain 0. -/
theorem State.gainStep_gainCurrent (s : State) {x : Slot} {v : Voice} (hv : x.voice = some v) :
    (s.gainStep x).gainCurrent = x.gainTarget := by
  cases hstate : v.state with
  | releasingNormal => by_cases hsilent : x.gainTarget = 0 <;> simp [State.gainStep, Slot.free, hv, hstate, hsilent]
  | releasingWithdraw => by_cases hsilent : x.gainTarget = 0 <;> simp [State.gainStep, Slot.free, hv, hstate, hsilent]
  | _ => simp [State.gainStep, hv, hstate]

/-! ### The blend (R165) and its scaling (R168) -/

theorem brightness_eq (level depth : Nat) : brightness level depth = level * depth / 32768 :=
  Nat.shiftRight_eq_div_pow _ _

theorem brightness_le {level depth : Nat} (hl : level ≤ 32767) (hd : depth ≤ 32767) : brightness level depth ≤ 32766 :=
  calc brightness level depth
    _ = level * depth / 32768 := brightness_eq _ _
    _ ≤ 32767 * 32767 / 32768 := Nat.div_le_div_right (Nat.mul_le_mul hl hd)
    _ = 32766 := by norm_num

theorem blend_eq (soft bright : Int) (w : Nat) : blend soft bright w = soft + ((bright - soft) * w).fdiv 32768 := by
  simp only [blend, shiftRight_15_eq_fdiv]

theorem blend_between (soft bright : Int) {w : Nat} (hw : w ≤ 32766) :
    min soft bright ≤ blend soft bright w ∧ blend soft bright w ≤ max soft bright := by
  rw [blend_eq]
  exact interpolate_mem _ _ (by omega) (by omega) (by omega)

/-- The extremes of R168: the full gain is one short of the divisor, so that neither end of the sample range is reached. -/
theorem scaled_mem_range {v g : Int} (hv : -32768 ≤ v ∧ v ≤ 32767) (hg : 0 ≤ g ∧ g ≤ 32767) :
    -32767 ≤ (v * g).fdiv 32768 ∧ (v * g).fdiv 32768 ≤ 32766 := by
  have hlow : -32768 * 32767 ≤ v * g := by nlinarith
  have hhigh : v * g ≤ 32767 * 32767 := by nlinarith
  rw [Int.fdiv_eq_ediv_of_nonneg _ (by decide)]
  omega

theorem State.wave_of_loaded {s : State} {img : Image} (h : s.loader.image = .loaded img) (t : Nat) :
    s.wave t = img.waves.getD t [] := by
  simp [State.wave, State.image?, h]

/-- Every table a program may name holds 256 samples of 16 bits where all sixteen do. -/
theorem lookupWave_waves_mem_range {waves : List (List Int)}
    (hwaves : ∀ w ∈ waves, w.length = 256 ∧ ∀ x ∈ w, -32768 ≤ x ∧ x ≤ 32767) (hlen : waves.length = 16)
    {t : Nat} (ht : t ≤ 15) (phase : BitVec 32) :
    -32768 ≤ lookupWave (waves.getD t []) phase ∧ lookupWave (waves.getD t []) phase ≤ 32767 := by
  have hindex : t < waves.length := by omega
  rw [List.getD_eq_getElem _ _ hindex]
  obtain ⟨hsize, hrange⟩ := hwaves waves[t] (List.getElem_mem _)
  exact lookupWave_mem_range hsize hrange phase

/-- Settles O43: the ramp by its two directions, the output by the ranges of lookup, blend and ramp. -/
theorem gainRampAndVoiceOutput : Obligations.GainRampAndVoiceOutput := by
  refine ⟨fun start target k _ hk => ?_, fun s x hx => ?_, fun s k x => s.slotOutput_of_free k, ?_⟩
  · obtain ⟨hlow, hhigh⟩ := rampGain_between start target hk
    exact ⟨rfl, rampGain_last start target, hlow, hhigh, fun hflat => hflat ▸ rampGain_flat start k,
      fun hs ht => rampGain_mem_range hs ht hk, rampGain_le_line k, rampGain_ge_line k⟩
  · obtain ⟨v, hv⟩ := Option.isSome_iff_exists.1 hx
    exact s.gainStep_gainCurrent hv
  · intro s k x v img hv himg _ hk hwaves hlen p hsoft hbright hdepth hlevel hcurrent htarget soft bright w blended
    have hweight := brightness_le hlevel hdepth
    have hblended : blended = blend soft bright (brightness s.breath.level p.depth) := by
      rw [blend_eq, brightness_eq]
    have hout : s.slotOutput k x = (blended * rampGain x.gainCurrent x.gainTarget k).fdiv 32768 := by
      rw [s.slotOutput_of_voice k hv, hblended, State.wave_of_loaded himg, State.wave_of_loaded himg]
    have hbetween := hblended ▸ blend_between soft bright hweight
    have hw : w = brightness s.breath.level p.depth := by rw [brightness_eq]
    have hsoftRange := lookupWave_waves_mem_range hwaves hlen hsoft x.phase
    have hbrightRange := lookupWave_waves_mem_range hwaves hlen hbright x.phase
    have hrange : -32768 ≤ blended ∧ blended ≤ 32767 :=
      ⟨(le_min hsoftRange.1 hbrightRange.1).trans hbetween.1, hbetween.2.trans (max_le hsoftRange.2 hbrightRange.2)⟩
    have hscaled := scaled_mem_range hrange (rampGain_mem_range hcurrent htarget hk)
    rw [hout]
    exact ⟨rfl, by omega, by omega, hbetween.1, hbetween.2, hscaled.1, hscaled.2⟩

end Sys2Proof.Machine

/-!
The event set and its acknowledgement (R189, R190). The ACK visits the thirteen events one after the other; each visit touches its own
event alone, and a second one would find nothing left to remove.
-/

namespace Sys2Proof.Machine

/-! ### The thirteen events and their bits (spec 11.4) -/

theorem getElem?_allEvents_bit (e : Event) : allEvents[e.bit]? = some e := by cases e <;> rfl

theorem mem_allEvents (e : Event) : e ∈ allEvents := List.mem_of_getElem? (getElem?_allEvents_bit e)

theorem Event.bit_lt (e : Event) : e.bit < 13 := by
  obtain ⟨hlt, _⟩ := List.getElem?_eq_some_iff.1 (getElem?_allEvents_bit e)
  exact hlt

theorem Event.bit_inj {e f : Event} (h : e.bit = f.bit) : e = f :=
  Option.some.inj <| by rw [← getElem?_allEvents_bit e, h, getElem?_allEvents_bit f]

theorem allEvents_bit_increasing : allEvents.Pairwise fun e f => e.bit < f.bit := by decide

namespace EventSet

variable (es : EventSet)

/-! ### Where an event stands (R189) -/

theorem mark_setMark (e f : Event) (m : EventMark) : (es.setMark e m).mark f = if f = e then m else es.mark f := by
  cases e <;> cases f <;> rfl

@[simp] theorem mark_setMark_self (e : Event) (m : EventMark) : (es.setMark e m).mark e = m := by
  rw [mark_setMark, if_pos rfl]

theorem mark_setMark_of_ne {e f : Event} (m : EventMark) (h : f ≠ e) : (es.setMark e m).mark f = es.mark f := by
  rw [mark_setMark, if_neg h]

@[simp] theorem mark_occur_self (e : Event) : (es.occur e).mark e = .unmarked := es.mark_setMark_self e _

/-- The sum of powers of two is read bit by bit, where the events come in the order of their bits and none is counted yet. -/
theorem testBit_sum_bits {l : List Event} (hl : l.Pairwise fun e f => e.bit < f.bit) {n : Nat} (hn : ∀ e ∈ l, n < 2 ^ e.bit)
    (i : Nat) :
    (l.foldl (fun acc e => acc + if es.mark e = .absent then 0 else 2 ^ e.bit) n).testBit i = true ↔
      n.testBit i = true ∨ ∃ e ∈ l, e.bit = i ∧ es.mark e ≠ .absent := by
  induction l generalizing n with
  | nil => simp
  | cons e l ih =>
    obtain ⟨hbelow, hl⟩ := List.pairwise_cons.1 hl
    have hfresh := hn e List.mem_cons_self
    rw [List.foldl_cons]
    by_cases habsent : es.mark e = .absent
    · rw [ih hl (by simpa [habsent] using fun f hf => hn f (List.mem_cons_of_mem e hf))]
      simp [habsent]
    · have hroom : ∀ f ∈ l, n + 2 ^ e.bit < 2 ^ f.bit := fun f hf =>
        calc n + 2 ^ e.bit
          _ < 2 ^ (e.bit + 1) := by omega
          _ ≤ 2 ^ f.bit := Nat.pow_le_pow_right two_pos (hbelow f hf)
      have hjoin : n + 2 ^ e.bit = 2 ^ e.bit ||| n := by
        simpa [Nat.add_comm] using Nat.two_pow_add_eq_or_of_lt hfresh 1
      rw [ih hl (by simpa [habsent] using hroom)]
      simp only [if_neg habsent, hjoin, Nat.testBit_or, Nat.testBit_two_pow, List.mem_cons]
      grind

/-- STATUS_EVENTS shows the bit of an event exactly while it stands (R187). -/
theorem bits_getLsbD_bit (e : Event) : es.bits.getLsbD e.bit = decide (es.mark e ≠ .absent) := by
  have hsum := es.testBit_sum_bits allEvents_bit_increasing (n := 0) (fun _ _ => Nat.two_pow_pos _) e.bit
  have hunique : (∃ f ∈ allEvents, f.bit = e.bit ∧ es.mark f ≠ .absent) ↔ es.mark e ≠ .absent :=
    ⟨fun ⟨_, _, hbit, hstands⟩ => Event.bit_inj hbit ▸ hstands, fun hstands => ⟨e, mem_allEvents e, rfl, hstands⟩⟩
  rw [hunique] at hsum
  rw [EventSet.bits, BitVec.getLsbD_ofNat, Bool.eq_iff_iff]
  simpa [e.bit_lt] using hsum

/-! ### The acknowledgement (R190) -/

theorem ackOne_of_not_listed {listed : BitVec 13} {e : Event} (h : listed.getLsbD e.bit = false) : es.ackOne listed e = es := by
  simp [ackOne, h]

theorem mark_ackOne_self (listed : BitVec 13) (e : Event) :
    (es.ackOne listed e).mark e = if listed.getLsbD e.bit = true ∧ es.mark e = .reported then .absent else es.mark e := by
  unfold ackOne
  by_cases h : listed.getLsbD e.bit = true ∧ es.mark e = .reported
  · simp [h]
  · rw [if_neg (by simpa using h), if_neg h]

theorem mark_ackOne_of_ne (listed : BitVec 13) {e f : Event} (h : f ≠ e) : (es.ackOne listed e).mark f = es.mark f := by
  unfold ackOne
  split
  · exact es.mark_setMark_of_ne .absent h
  · rfl

theorem mark_foldl_ackOne (listed : BitVec 13) (l : List Event) (f : Event) :
    (l.foldl (fun acc e => acc.ackOne listed e) es).mark f =
      if f ∈ l ∧ listed.getLsbD f.bit = true ∧ es.mark f = .reported then .absent else es.mark f := by
  induction l generalizing es with
  | nil => simp
  | cons e l ih =>
    rw [List.foldl_cons, ih]
    by_cases hvisited : f = e
    · subst hvisited
      rw [mark_ackOne_self]
      by_cases hremoved : listed.getLsbD f.bit = true ∧ es.mark f = .reported <;> simp [hremoved]
    · rw [mark_ackOne_of_ne es listed hvisited]
      simp [hvisited]

theorem mark_ack (listed : BitVec 13) (e : Event) :
    (es.ack listed).mark e = if listed.getLsbD e.bit = true ∧ es.mark e = .reported then .absent else es.mark e := by
  simp [ack, mark_foldl_ackOne, mem_allEvents]

theorem ack_of_none_listed {listed : BitVec 13} (h : ∀ e : Event, listed.getLsbD e.bit = false) : es.ack listed = es :=
  List.foldl_fixed' (fun _ => es.ackOne_of_not_listed (h _)) allEvents

/-- An event that occurred since its report is not acknowledged. -/
theorem mark_ack_occur (listed : BitVec 13) (e : Event) : ((es.occur e).ack listed).mark e = .unmarked := by
  simp [mark_ack]

theorem bits_getLsbD_of_unmarked {e : Event} (h : es.mark e = .unmarked) : es.bits.getLsbD e.bit = true := by
  simp [bits_getLsbD_bit, h]

end EventSet

/-! ### The processing of the message at the head (R183) -/

theorem unlessHeld_of_running {s : State} (hr : s.Running) (f : State → State) : unlessHeld s f = .next (f s) := by
  simp [unlessHeld, hr]

/-- A message that its command names, and for whose records there is room, takes effect and leaves the in FIFO. -/
theorem processHead_of_room {s : State} {m : Octets} {rest : List Octets} {f : Message → Option (State → State)}
    {g : State → State} (hhead : s.panel.inFifo = m :: rest) (hroom : (readMessage m).room + s.panel.outFifo.length ≤ 8)
    (hf : f (readMessage m) = some g) : processHead f s = g (dropHead s) := by
  have hmessage : s.headMessage = some (readMessage m) := by
    simp only [State.headMessage, hhead]
    exact if_pos hroom
  simp [processHead, hmessage, hf]

theorem dropHead_of_cons {s : State} {m : Octets} {rest : List Octets} (hhead : s.panel.inFifo = m :: rest) :
    dropHead s = { s with panel := { s.panel with inFifo := rest } } := by
  simp [dropHead, hhead]

/-! ### The ACK message (spec 11.4) -/

/-- The event set an ACK carries in its bytes 1 and 2. -/
def ackSet (m : Octets) : BitVec 13 := (m.b1 ++ m.b2 : BitVec 16).extractLsb' 0 13

theorem readMessage_ack {m : Octets} (hkind : m.b0 = 9) : readMessage m = .ack (ackSet m) := by
  simp [readMessage, hkind, ackSet]

/-- The low byte holds the first eight events, the high byte the others. -/
theorem ackSet_getLsbD (m : Octets) (e : Event) :
    (ackSet m).getLsbD e.bit = if e.bit < 8 then m.b2.getLsbD e.bit else m.b1.getLsbD (e.bit - 8) := by
  rw [ackSet, BitVec.getLsbD_extractLsb', Nat.zero_add, decide_eq_true e.bit_lt, Bool.true_and]
  exact BitVec.getLsbD_append

theorem exec_ack_of_head {s : State} {m : Octets} {rest : List Octets} (hr : s.Running) (hhead : s.panel.inFifo = m :: rest)
    (hkind : m.b0 = 9) (hroom : s.panel.outFifo.length ≤ 8) :
    exec .ack s = .next (takeAck (ackSet m) { s with panel := { s.panel with inFifo := rest } }) := by
  have hread := readMessage_ack hkind
  have hnone : (readMessage m).room + s.panel.outFifo.length ≤ 8 := by simpa [hread, Message.room] using hroom
  calc exec .ack s
    _ = .next (processHead onAck s) := unlessHeld_of_running hr _
    _ = .next (takeAck (ackSet m) (dropHead s)) := by rw [processHead_of_room hhead hnone (by rw [hread]; rfl)]
    _ = _ := by rw [dropHead_of_cons hhead]

/-- Settles O49: what an ACK does to each event, and that an occurrence leaves nothing for it to remove. -/
theorem ackRemovesReported : Obligations.AckRemovesReported := by
  refine ⟨fun s m rest hr hhead hkind hroom => ?_, fun es listed e => ⟨⟨?_, ?_⟩, ?_, ?_⟩⟩
  · intro listed
    have hlisted : ∀ e, listed e = (ackSet m).getLsbD e.bit := fun e => (ackSet_getLsbD m e).symm
    have hmarks : ∀ e, (s.panel.events.ack (ackSet m)).mark e =
        if listed e = true ∧ s.panel.events.mark e = .reported then .absent else s.panel.events.mark e := by
      simpa only [hlisted] using s.panel.events.mark_ack (ackSet m)
    refine ⟨_, exec_ack_of_head hr hhead hkind hroom, hmarks, fun hgesture hreported => ?_, fun hstands => if_neg hstands,
      fun hnone => ?_, rfl⟩
    · exact if_pos ((hmarks .gestureReport).trans (if_pos ⟨hgesture, hreported⟩))
    · exact s.panel.events.ack_of_none_listed fun e => (hlisted e).symm.trans (hnone e)
  · exact es.mark_ack_occur listed e
  · exact EventSet.bits_getLsbD_of_unmarked _ (es.mark_ack_occur listed e)
  · exact (es.ack listed).mark_occur_self e
  · exact EventSet.bits_getLsbD_of_unmarked _ ((es.ack listed).mark_occur_self e)

end Sys2Proof.Machine

/-!
The check of a sensor burst (R193, spec 11.1). A burst is good by its length and the sum of all its bytes; one that fails the check is no
frame, so the receiver takes nothing from it.
-/

namespace Sys2Proof.Machine

/-! ### Which bursts are good -/

/-- The check byte is one of the summed bytes. -/
theorem readBurst_eight_isSome_iff (q k0 k1 k2 hi mid lo check : Byte) :
    (readBurst [q, k0, k1, k2, hi, mid, lo, check]).isSome = true ↔
      (q.toNat + k0.toNat + k1.toNat + k2.toNat + hi.toNat + mid.toNat + lo.toNat + check.toNat) % 256 = 255 := by
  rw [readBurst, Option.isSome_ite]

theorem readBurst_of_length_ne {burst : List Byte} (h : burst.length ≠ 8) : readBurst burst = none := by
  unfold readBurst
  split
  · exact absurd rfl h
  · rfl

theorem readBurst_isSome_iff (burst : List Byte) :
    (readBurst burst).isSome = true ↔ burst.length = 8 ∧ (burst.map BitVec.toNat).sum % 256 = 255 := by
  by_cases hlen : burst.length = 8
  · match burst, hlen with
    | [q, k0, k1, k2, hi, mid, lo, check], _ => simp [readBurst_eight_isSome_iff, Nat.add_assoc]
  · simp [readBurst_of_length_ne hlen, hlen]

/-- The sender's check byte: what the other seven bytes, at most 7 * 255 together, lack to 255 modulo 256. -/
theorem readBurst_isSome_of_check {q k0 k1 k2 hi mid lo check : Byte}
    (hcheck : check.toNat =
      (255 + 7 * 256 - (q.toNat + k0.toNat + k1.toNat + k2.toNat + hi.toNat + mid.toNat + lo.toNat)) % 256) :
    (readBurst [q, k0, k1, k2, hi, mid, lo, check]).isSome = true := by
  rw [readBurst_eight_isSome_iff, hcheck]
  omega

/-! ### What a bad burst does -/

theorem takeBurst_of_bad {burst : List Byte} (h : readBurst burst = none) (s : State) : takeBurst burst s = s := by
  simp [takeBurst, h]

/-- Power-on reset or not: with nothing due, a command whose own work changes nothing leaves the state. -/
theorem whenSettled_of_fixed {s : State} {f : State → State} (hquiet : s.Quiet) (h : f s = s) : whenSettled s f = .next s := by
  rw [whenSettled, unlessHeld, settle_of_quiet hquiet, h, ite_self]

/-- Settles O9: the check by the burst's length and sum, and a bad burst leaves the state, in power-on reset or out of it. -/
theorem sensorBurstCheck : Obligations.SensorBurstCheck := by
  refine ⟨readBurst_isSome_iff, rfl, fun _ _ _ _ _ _ _ _ => readBurst_isSome_of_check, fun s burst hbad hquiet => ?_⟩
  exact whenSettled_of_fixed hquiet (takeBurst_of_bad hbad s)

end Sys2Proof.Machine

/-!
What the loader makes of the bytes it reads (R17, R27, R38, R68, R178, R179): every field of an installed image and of a program block
comes out of a clamp, a remainder or a cut of its own.
-/

namespace Sys2Proof.Machine

/-! ### Clamps and fields -/

theorem clampInt_mem {low high : Int} (h : low ≤ high) (x : Int) : low ≤ clampInt low high x ∧ clampInt low high x ≤ high := by
  unfold clampInt; omega

theorem clampNat_mem {low high : Nat} (h : low ≤ high) (x : Nat) : low ≤ clampNat low high x ∧ clampNat low high x ≤ high := by
  unfold clampNat; omega

theorem word16_le (hi lo : Byte) : word16 hi lo ≤ 65535 := by
  unfold word16; omega

theorem signed16_mem (hi lo : Byte) : -32768 ≤ signed16 hi lo ∧ signed16 hi lo ≤ 32767 := by
  have low := BitVec.le_toInt (hi ++ lo : BitVec 16)
  have high := BitVec.toInt_lt (x := (hi ++ lo : BitVec 16))
  unfold signed16
  norm_num at low high
  omega

theorem forall_mem_map_range {α : Type} {f : Nat → α} {n : Nat} {P : α → Prop} (h : ∀ i, P (f i)) :
    ∀ x ∈ (List.range n).map f, P x := by
  simp only [List.mem_map]
  rintro _ ⟨i, -, rfl⟩
  exact h i

theorem cut_and_care (pattern care : BitVec 24) : pattern &&& care &&& care = pattern &&& care := by
  rw [BitVec.and_assoc, BitVec.and_self]

/-! ### The sections of an image -/

theorem thresholdOff_lt {tOn : Nat} (h : 1 ≤ tOn) (raw : Nat) : thresholdOff tOn raw < tOn ∧ thresholdOff tOn raw ≤ 4094 := by
  dsimp only [thresholdOff]
  split <;> omega

theorem defaultScaleOf_ne_zero (x : BitVec 12) : defaultScaleOf x ≠ 0 := by
  unfold defaultScaleOf
  split
  · decide
  · assumption

theorem programDirectory_length (bytes : List Byte) : (programDirectory bytes).length ≤ 16 := by
  dsimp only [programDirectory]
  split <;> simp

theorem chartOf_length (bytes : List Byte) : (chartOf bytes).length ≤ 96 := by simp [chartOf]

theorem mem_chartOf {bytes : List Byte} {e : ChartEntry} (h : e ∈ chartOf bytes) :
    e.pattern &&& e.care = e.pattern ∧ e.base ≤ 127 :=
  forall_mem_map_range (P := fun e : ChartEntry => e.pattern &&& e.care = e.pattern ∧ e.base ≤ 127)
    (fun _ => ⟨cut_and_care _ _, Nat.min_le_left _ _⟩) e h

/-- The bounds a watched quantity is clamped to, or the cut of its key pattern (R38). -/
def Watch.Clamped : Watch → Prop
  | .breath low high => 0 ≤ low ∧ low ≤ 4095 ∧ 0 ≤ high ∧ high ≤ 4095
  | .rise low high => -4095 ≤ low ∧ low ≤ 4095 ∧ -4095 ≤ high ∧ high ≤ 4095
  | .lip low high => 0 ≤ low ∧ low ≤ 4095 ∧ 0 ≤ high ∧ high ≤ 4095
  | .keys care pattern => pattern &&& care = pattern

theorem watchAt_clamped {bytes : List Byte} {i : Nat} {w : Watch} (h : watchAt bytes i = some w) : w.Clamped := by
  have unipolar := clampInt_mem (low := 0) (high := 4095) (by decide)
  have bipolar := clampInt_mem (low := -4095) (high := 4095) (by decide)
  simp only [watchAt] at h
  split at h <;> simp only [Option.some.injEq, reduceCtorEq] at h <;> subst h
  · exact ⟨(unipolar _).1, (unipolar _).2, unipolar _⟩
  · exact ⟨(bipolar _).1, (bipolar _).2, bipolar _⟩
  · exact ⟨(unipolar _).1, (unipolar _).2, unipolar _⟩
  · exact cut_and_care _ _

theorem detectorAt_clamped {bytes : List Byte} {i : Nat} {d : DetectorDef} (h : detectorAt bytes i = some d) :
    (1 ≤ d.count ∧ d.count ≤ 255) ∧ d.watch.Clamped := by
  simp only [detectorAt] at h
  split at h
  · next w a hw _ =>
    obtain rfl := Option.some.inj h
    have := (byteAt bytes (i + 2)).isLt
    exact ⟨by simp only; omega, watchAt_clamped hw⟩
  · cases h

theorem waveTable_length (bytes : List Byte) (t : Nat) : (waveTable bytes t).length = 256 := by
  unfold waveTable
  split
  · rw [List.length_map, List.length_range]
  · exact List.length_replicate

theorem mem_waveTable {bytes : List Byte} {t : Nat} {x : Int} (h : x ∈ waveTable bytes t) : -32768 ≤ x ∧ x ≤ 32767 := by
  unfold waveTable at h
  split at h
  · exact forall_mem_map_range (P := fun x : Int => -32768 ≤ x ∧ x ≤ 32767) (fun _ => signed16_mem _ _) x h
  · rw [List.eq_of_mem_replicate h]; decide

theorem eq_imageOf_of_loadImage {flash : List Byte} {img : Image} (h : loadImage flash = some img) : img = imageOf flash := by
  simp only [loadImage, Option.ite_none_right_eq_some, Option.some.injEq] at h
  exact h.2.symm

/-- The just table holds twelve deviations of at most 500 (R83). -/
theorem mem_just_of_loadImage {flash : List Byte} {img : Image} (h : loadImage flash = some img) :
    ∀ x ∈ img.just, -500 ≤ x ∧ x ≤ 500 := by
  rw [eq_imageOf_of_loadImage h]
  exact forall_mem_map_range fun _ => clampInt_mem (by decide) _

theorem defaultKey_of_loadImage {flash : List Byte} {img : Image} (h : loadImage flash = some img) :
    img.defaultKey < 12 ∧ img.defaultScale ≠ 0 := by
  rw [eq_imageOf_of_loadImage h]
  exact ⟨Nat.mod_lt _ (by decide), defaultScaleOf_ne_zero _⟩

theorem detectorDefs_of_loadImage {flash : List Byte} {img : Image} (h : loadImage flash = some img) (d : Fin 4) :
    ∀ df ∈ img.detectorDefs.get d, (1 ≤ df.count ∧ df.count ≤ 255) ∧ df.watch.Clamped := by
  rw [eq_imageOf_of_loadImage h]
  intro df hdf
  fin_cases d <;> exact detectorAt_clamped hdf

/-! ### Program blocks -/

theorem rankProgramAt_clamped (block : List Byte) (i : Nat) :
    (rankProgramAt block i).level ≤ 32767 ∧ (rankProgramAt block i).intervals.length ≤ 4 ∧
      ∀ x ∈ (rankProgramAt block i).intervals, -24 ≤ x ∧ x ≤ 24 :=
  ⟨Nat.min_le_left _ _, by simp [rankProgramAt], forall_mem_map_range fun _ => clampInt_mem (by decide) _⟩

theorem eq_programOf_of_readProgram {flash : List Byte} {address : Nat} {p : Program} (h : readProgram flash address = some p) :
    ∃ block, p = programOf block := by
  simp only [readProgram, Option.ite_none_right_eq_some, Option.some.injEq] at h
  exact ⟨_, h.2.symm⟩

theorem programOf_pitchOk (block : List Byte) : (programOf block).PitchOk :=
  ⟨Nat.min_le_left _ _, (clampNat_mem (by decide) _).1, (clampNat_mem (by decide) _).2, Nat.min_le_left _ _⟩

theorem Image.pitchOk_of_readProgram {img : Image} {flash : List Byte} {n : Nat} {p : Program}
    (h : img.readProgram flash n = some p) : p.PitchOk := by
  unfold Image.readProgram at h
  split at h
  · obtain ⟨block, rfl⟩ := eq_programOf_of_readProgram h
    exact programOf_pitchOk block
  · cases h

/-- Settles O7, field by field from the clamps. -/
theorem loadedContentsWithinClamps : Obligations.LoadedContentsWithinClamps := by
  constructor
  · intro flash img h
    have hdet := detectorDefs_of_loadImage h
    have hkey := defaultKey_of_loadImage h
    obtain rfl := eq_imageOf_of_loadImage h
    have hon := clampNat_mem (low := 1) (high := 4095) (by decide) (word16At (sectionBytes flash (imageDirectory flash) 4) 0)
    refine ⟨⟨by simp [imageOf], forall_mem_map_range fun _ => clampInt_mem (by decide) _⟩,
      ⟨chartOf_length _, fun e he => mem_chartOf he⟩,
      ⟨hon.1, hon.2, (thresholdOff_lt hon.1 _).1, (thresholdOff_lt hon.1 _).2, Nat.min_le_left _ _⟩,
      ⟨by simp [imageOf], forall_mem_map_range fun _ => Nat.min_le_left _ _⟩,
      ⟨by simp [imageOf], mem_just_of_loadImage h⟩, fun d df hdf => ?_,
      ⟨word16_le _ _, hkey.1, hkey.2, programDirectory_length _⟩,
      by simp [imageOf], forall_mem_map_range fun _ => ⟨waveTable_length _ _, fun _ => mem_waveTable⟩⟩
    obtain ⟨⟨hlow, hhigh⟩, hwatch⟩ := hdet d df hdf
    exact ⟨hlow, hhigh, hwatch⟩
  · intro flash address p h
    obtain ⟨block, rfl⟩ := eq_programOf_of_readProgram h
    obtain ⟨hstrength, hslew, hslew', hportamento⟩ := programOf_pitchOk block
    have hrate := clampNat_mem (low := 1) (high := 32767) (by decide)
    have hbyte := (byteAt block 13).isLt
    refine ⟨Nat.min_le_left _ _, Nat.min_le_left _ _, Nat.min_le_left _ _, Nat.min_le_left _ _, Nat.min_le_left _ _,
      hrate _, hrate _, hportamento, hstrength, Nat.le_of_lt_succ hbyte, Nat.min_le_left _ _, ⟨hslew, hslew'⟩,
      Nat.min_le_left _ _, fun r => ?_⟩
    fin_cases r <;> exact rankProgramAt_clamped block _

end Sys2Proof.Machine

/-!
The contents of a good line frame (R143, R195): every field a block reads from one is within its range.
-/

namespace Sys2Proof.Machine

/-- The ranges of the fields of a frame's contents (spec 11.2, R195). -/
def Payload.InRange : Payload → Prop
  | .noteStart _ n _ c => n ≤ 127 ∧ c ≤ 3
  | .noteEnd _ => True
  | .held _ _ n _ => n ≤ 127
  | .claim _ n => n ≤ 127
  | .roster es => es.length ≤ 8 ∧ ∀ e ∈ es, e.note ≤ 127 ∧ e.levelClass ≤ 3

theorem readNote_eq_some {b : Byte} {n : Nat} (h : readNote b = some n) : n ≤ 127 := by
  simp only [readNote, Option.ite_none_right_eq_some, Option.some.injEq] at h
  omega

theorem readClass_le (b : Byte) : readClass b ≤ 3 := by
  unfold readClass; omega

/-- A ROSTER holds an entry for every three bytes, each in range. -/
theorem readRosterEntries_inRange {bytes : List Byte} {es : List RosterEntry} (h : readRosterEntries bytes = some es) :
    bytes.length = 3 * es.length ∧ ∀ e ∈ es, e.note ≤ 127 ∧ e.levelClass ≤ 3 := by
  induction bytes using readRosterEntries.induct generalizing es with
  | case1 => obtain rfl := Option.some.inj h; simp
  | case2 t n rc rest ih =>
    simp only [readRosterEntries, Option.bind_eq_bind, Option.bind_eq_some_iff, Option.pure_def, Option.some.injEq] at h
    obtain ⟨tag, -, note, hnote, more, hmore, rfl⟩ := h
    obtain ⟨hlen, hmem⟩ := ih hmore
    refine ⟨by simp only [List.length_cons]; omega, ?_⟩
    rw [List.forall_mem_cons]
    exact ⟨⟨readNote_eq_some hnote, readClass_le _⟩, hmem⟩
  | case3 => simp [readRosterEntries] at h

/-- The contents read from the payload of a kind are of that kind and in range. -/
theorem readPayload_inRange {kind : Nat} {bytes : List Byte} {p : Payload} (h : readPayload kind bytes = some p) :
    p.kind = kind ∧ p.InRange := by
  unfold readPayload at h
  split at h <;> (try split at h) <;>
    simp only [Option.bind_eq_bind, Option.bind_eq_some_iff, Option.pure_def, Option.some.injEq, reduceCtorEq] at h
  · obtain ⟨_, -, note, hnote, rfl⟩ := h
    exact ⟨rfl, readNote_eq_some hnote, readClass_le _⟩
  · obtain ⟨_, -, rfl⟩ := h
    exact ⟨rfl, trivial⟩
  · obtain ⟨_, -, note, hnote, _, -, rfl⟩ := h
    exact ⟨rfl, readNote_eq_some hnote⟩
  · obtain ⟨note, hnote, rfl⟩ := h
    exact ⟨rfl, readNote_eq_some hnote⟩
  · next c rest hc =>
    obtain ⟨es, hes, rfl⟩ := h
    obtain ⟨hlen, hmem⟩ := readRosterEntries_inRange hes
    exact ⟨rfl, by omega, hmem⟩

theorem inRange_of_verdict_good {bytes : List Byte} {f : LineFrame} (h : verdict bytes = .good f) : f.payload.InRange := by
  unfold verdict at h
  split at h
  · split at h
    · cases h
    · split at h
      · cases h
      · split at h
        · cases h
        · split at h
          · cases h
          · next hp =>
            split at h
            · obtain rfl := Verdict.good.inj h
              exact (readPayload_inRange hp).2
            · cases h
  · cases h

/-- A peer frame is good, heard, and bears another station's number (R124, R142). -/
theorem peerFrame_eq_some {s : State} {bytes : List Byte} {f : LineFrame} :
    s.peerFrame bytes = some f ↔ verdict bytes = .good f ∧ s.line.state ≠ .disabled ∧ f.station ≠ s.power.station := by
  unfold State.peerFrame State.receives
  split
  · next g hg => simp [hg]; grind
  · next hg => simpa using fun h _ => absurd h (hg f)

end Sys2Proof.Machine

/-!
What a step can do, said once. Every step but the two of power-on reset is a run of moves: updates of one block each, and the shared
operations on voices and ranks. A law holds after every step once it holds after every move. A move of a block on its own carries what it
keeps of that block's law.
-/

namespace Sys2Proof.Machine

/-- The law of map and stations for a station of this number: `SectionMapOk` apart from power-on reset. -/
def SectionMap.Ok (own : Fin 8) (m : SectionMap) : Prop :=
  InOrder m.entries ∧
  (∀ e ∈ m.entries, e.station ≠ own ∧ (m.stations.get e.station).present = true ∧ e.note ≤ 127 ∧ e.levelClass ≤ 3) ∧
  m.stations.get own = { present := false, age := 0 } ∧
  ∀ st : Fin 8, (m.stations.get st).age ≤ Config.expiryAge

/-- One move of a running part. -/
inductive Move (s : State) : State → Prop
  | sensor (x : Sensor) (h : s.PortsOk → State.PortsOk { s with sensor := x }) : Move s { s with sensor := x }
  | resolver (x : Resolver) (hlead : x.leadNote = s.resolver.leadNote)
      (h : s.PortsOk → State.PortsOk { s with resolver := x }) : Move s { s with resolver := x }
  | detectors (x : Four Detector) : Move s { s with detectors := x }
  | selector (b : BankId) : Move s { s with banks := { s.banks with selector := b } }
  | pitch (x : Pitch) (h : s.PortsOk → State.PortsOk { s with pitch := x }) : Move s { s with pitch := x }
  | key (k : Nat) (scale : BitVec 12) (h : s.PortsOk → k < 12 ∧ scale ≠ 0) :
      Move s { s with harmony := { s.harmony with key := k, scale := scale } }
  | audio (x : Audio) (h : s.PortsOk → State.PortsOk { s with audio := x }) : Move s { s with audio := x }
  | panel (x : Panel) (h : s.PortsOk → State.PortsOk { s with panel := x }) : Move s { s with panel := x }
  | line (x : Line) (hline : s.LineOk → State.LineOk { s with line := x })
      (h : s.PortsOk → State.PortsOk { s with line := x }) : Move s { s with line := x }
  | breath (x : Breath) (h : x.articulation = .sounding ↔ s.breath.articulation = .sounding) : Move s { s with breath := x }
  /-- The end of a note, and ALL_OFF. -/
  | release (x : Breath) (h : x.articulation = .sounding → s.breath.articulation = .sounding) :
      Move s (releaseAll { s with breath := x })
  /-- A change of the lead note. -/
  | lead (n : Nat) (h : n ≤ 127) : Move s (deliverLeadChange { s with resolver := { s.resolver with leadNote := n } })
  /-- The end of an onset. -/
  | start (x : Breath) (h : s.breath.articulation = .onset) (hx : x.articulation = .sounding) :
      Move s (leadStart { s with breath := x })
  /-- A change of the rank enables. -/
  | enables (master : Bool) (live : BitVec 3) :
      Move s (changeEnables (fun x => { x with harmony := { x.harmony with master := master, liveRanks := live } }) s)
  | yields (r : Fin 3) : Move s (yieldRank r s)
  | confirm (r : Fin 3) (h : (s.rank r).stage = .window ∨ (s.rank r).stage = .localPending) : Move s (confirm r s)
  /-- A rank's ages and marks, and the stages a queued claim passes. -/
  | rank (r : Fin 3) (k : Rank) (hkeep : k.claim = (s.rank r).claim ∧ k.refused = (s.rank r).refused ∧ k.slot = (s.rank r).slot)
      (hstage : k.stage = (s.rank r).stage ∨
        ((s.rank r).stage = .queued ∧ (k.stage = .window ∨ k.stage = .localPending))) : Move s (setRank r k s)
  | gains : Move s (stepGains s)
  | glide : Move s (mapVoices s.glide s)
  | tune : Move s (tuneAll s)
  /-- Announced flags, gains and phases of the slots. -/
  | slots (x : Eight Slot) (h : ∀ t, (x.get t).voice = s.voice t) : Move s { s with slots := x }
  /-- The map takes new entries, each of which the ranks are then checked against. -/
  | map (m : SectionMap) (new : List MapEntry) (hmap : s.map.Ok s.power.station → m.Ok s.power.station)
      (hnew : ∀ e ∈ m.entries, e ∈ s.map.entries ∨ e ∈ new) :
      Move s (new.foldl (fun x e => checkEntry e x) { s with map := m })
  /-- A bank changes, with the program read in flight; the program of a referenced bank stays. -/
  | bank (b : BankId) (x : BankState) (reading : Option ReadInFlight)
      (hbanks : s.BanksOk → State.BanksOk { setBank b x s with loader := { s.loader with reading := reading } })
      (hheld : s.BanksOk → s.referenced b = true → x.held? = (s.bank b).held?)
      (hprogram : ∀ h ∈ x.held?, h ∈ (s.bank b).held? ∨ h.params.PitchOk) :
      Move s { setBank b x s with loader := { s.loader with reading := reading } }
  /-- The read of the default program begins during an image load. -/
  | defaultRead (n : Nat) (h : s.loadingImage = true) :
      Move s { s with banks := { a := .loading n, b := .empty, selector := .bankA } }
  /-- An image load ends in FAULT or LOADED. -/
  | loadEnd (image : ImageState) (held : Option Held) (lead : Nat) (line : Line) (h : s.loadingImage = true)
      (himage : (image = .fault ∧ held = none) ∨
        ∃ img, image = .loaded img ∧ (∀ x ∈ img.just, -500 ≤ x ∧ x ≤ 500) ∧ ∀ x ∈ held, x.params.PitchOk)
      (hlead : lead = s.resolver.leadNote ∨ lead ≤ 127)
      (hline : s.LineOk → ({ s with line := line, loader := { s.loader with startUpDone := true } } : State).LineOk)
      (hports : s.PortsOk → State.PortsOk { s with line := line }) :
      Move s { s with
        loader := { image := image, reading := none, startUpDone := true }
        banks := banksAfterLoad held
        resolver := { s.resolver with leadNote := lead }
        line := line }
  | reload : Move s (reloadPart s)

/-- A run of moves. -/
abbrev Moves : State → State → Prop := Relation.ReflTransGen Move

/-! ### Moves keep the power block and the commands waiting -/

/-- The commands waiting and the power block stand. -/
abbrev SameCore (s t : State) : Prop := t.pending = s.pending ∧ t.power = s.power

theorem SameCore.trans {s t u : State} (h : SameCore s t) (k : SameCore t u) : SameCore s u :=
  ⟨k.1.trans h.1, k.2.trans h.2⟩

theorem VoiceWork.sameCore {s t : State} (h : VoiceWork s t) : SameCore s t := ⟨h.pending, h.power⟩

theorem voiceWork_changeEnables {f : State → State} (s : State) : VoiceWork (f s) (changeEnables f s) :=
  voiceWork_foldl (fun acc r => enableChanged r (s.enabled r) ((f s).enabled r) acc)
    (fun acc r => voiceWork_enableChanged r _ _ acc) allRanks (f s)

theorem voiceWork_stepGains (s : State) : VoiceWork s (stepGains s) :=
  (voiceWork_mapSlots _ s).trans (voiceWork_loadPending _)

theorem voiceWork_checkEntries (new : List MapEntry) (s : State) : VoiceWork s (new.foldl (fun x e => checkEntry e x) s) :=
  voiceWork_foldl _ (fun s e => voiceWork_checkEntry e s) new s

theorem Move.sameCore {s t : State} (h : Move s t) : SameCore s t := by
  cases h with
  | release x => exact (voiceWork_releaseAll { s with breath := x }).sameCore
  | lead n => exact (voiceWork_deliverLeadChange { s with resolver := { s.resolver with leadNote := n } }).sameCore
  | start x => exact (voiceWork_leadStart { s with breath := x }).sameCore
  | enables m l =>
    exact (voiceWork_changeEnables
      (f := fun x => { x with harmony := { x.harmony with master := m, liveRanks := l } }) s).sameCore
  | yields r => exact (voiceWork_yieldRank r s).sameCore
  | confirm r => exact (voiceWork_confirm r s).sameCore
  | gains => exact (voiceWork_stepGains s).sameCore
  | map m new => exact (voiceWork_checkEntries new { s with map := m }).sameCore
  | bank b x => cases b <;> exact ⟨rfl, rfl⟩
  | _ => exact ⟨rfl, rfl⟩

theorem Moves.sameCore {s t : State} (h : Moves s t) : SameCore s t := by
  induction h with
  | refl => exact ⟨rfl, rfl⟩
  | tail _ hm ih => exact ih.trans hm.sameCore

/-- A law that every move of a running part keeps holds after a run of them. -/
theorem Moves.keeps {law : State → Prop} (hlaw : ∀ s t : State, s.Running → Move s t → law s → law t) {s t : State}
    (h : Moves s t) (hr : s.Running) (hs : law s) : law t := by
  induction h with
  | refl => exact hs
  | @tail u v hu hm ih =>
    have hpower := (Moves.sameCore hu).2
    exact hlaw u v (by rw [State.Running, hpower]; exact hr) hm ih

end Sys2Proof.Machine

/-!
Every operation of the part is a run of moves.
-/

namespace Sys2Proof.Machine

theorem moves_foldl {α : Type} {f : State → α → State} (hf : ∀ s a, Moves s (f s a)) (l : List α) (s : State) :
    Moves s (l.foldl f s) := by
  induction l generalizing s with
  | nil => exact .refl
  | cons a l ih => exact (hf s a).trans (ih _)

theorem fold_le (x : Int) : fold x ≤ 127 := by
  unfold fold; split
  · omega
  · split <;> omega

theorem countUp_le (n : Nat) : countUp n ≤ 65535 := Nat.min_le_left _ _

/-! ### The line -/

theorem Line.enqueue_heldDropped (l : Line) (r : Record) :
    (l.enqueue r).heldDropped = l.heldDropped ∨ (l.enqueue r).heldDropped = countUp l.heldDropped := by
  have hjoin : ∀ (m : Line) (r : Record), (m.join r).heldDropped = m.heldDropped ∨ (m.join r).heldDropped = countUp m.heldDropped := by
    intro m r
    unfold Line.join; split
    · exact .inl rfl
    · exact .inr rfl
  have hreplace : ∀ (p : Record → Bool) (r : Record),
      (l.replaceOrJoin p r).heldDropped = l.heldDropped ∨ (l.replaceOrJoin p r).heldDropped = countUp l.heldDropped := by
    intro p r
    unfold Line.replaceOrJoin; split
    · exact .inl rfl
    · exact hjoin l r
  unfold Line.enqueue
  split
  · split
    · exact hreplace _ _
    · exact hreplace _ _
    · exact hreplace _ _
    · split
      · exact .inl rfl
      · exact .inr rfl
    · dsimp only
      split
      · exact .inl rfl
      · exact hjoin { l with rosterTimer := none } _
  · exact .inl rfl

theorem lineOk_enqueue {s : State} (h : s.LineOk) (r : Record) : (enqueue r s).LineOk := by
  obtain ⟨hqueue, hidle, hmark, hactive, hdisabled, hstart, hmax⟩ := h
  have same := sameLine_admit s.line r
  simp only [State.LineOk, admit_line, same.state, same.underWay, same.errorCounter]
  refine ⟨Line.queueOk_admit hqueue r, fun hstate => ?_, fun hnone y hy => ?_, hactive, hdisabled, hstart, hmax⟩
  · rw [admit_of_not_active hstate]; exact hidle hstate
  · obtain rfl | hy := Line.mem_admit hy
    · rfl
    · exact hmark hnone y hy

theorem portsOk_enqueue {s : State} (h : s.PortsOk) (r : Record) : (enqueue r s).PortsOk := by
  obtain ⟨⟨hmissed, hunresolved, hbad, hdropped, hheld, hclip⟩, hrest⟩ := h
  have same := sameLine_admit s.line r
  refine ⟨⟨hmissed, hunresolved, ?_, ?_, ?_, hclip⟩, hrest⟩
  · rw [admit_line, same.badFrames]; exact hbad
  · rw [admit_line, same.recordsDropped]; exact hdropped
  · rw [admit_line]
    obtain hsame | hcount := s.line.enqueue_heldDropped r
    · rw [hsame]; exact hheld
    · rw [hcount]; exact countUp_le _

theorem lineOk_remove {s : State} (h : s.LineOk) (p : Record → Bool) : (removeRecords p s).LineOk := by
  obtain ⟨hqueue, hidle, hmark, hrest⟩ := h
  refine ⟨hqueue.filter _, fun hstate => ?_, fun hnone y hy => hmark hnone y (List.mem_of_mem_filter hy), hrest⟩
  obtain ⟨hnil, hnone⟩ := hidle hstate
  exact ⟨by simp [removeRecords, Line.remove, hnil], hnone⟩

theorem moves_enqueue (r : Record) (s : State) : Moves s (enqueue r s) :=
  .single (.line _ (lineOk_enqueue · r) (portsOk_enqueue · r))

theorem moves_removeRecords (p : Record → Bool) (s : State) : Moves s (removeRecords p s) :=
  .single (.line _ (lineOk_remove · p) id)

/-- A change of the line's own records: timers, counters and flags that the law does not speak of. -/
theorem moves_frameOver (s : State) : Moves s (frameOver s) := .single (.line _ id id)

theorem moves_countBadFrame (s : State) : Moves s (countBadFrame s) :=
  .single (.line _ id fun ⟨⟨hmissed, hunresolved, _, hrest⟩, hports⟩ => ⟨⟨hmissed, hunresolved, countUp_le _, hrest⟩, hports⟩)

/-! ### Events -/

theorem moves_raise (e : Event) (s : State) : Moves s (raise e s) := .single (.panel _ id)

theorem moves_raiseGesture (d : Fin 4) (s : State) : Moves s (raiseGesture d s) := .single (.panel _ id)

/-! ### Frames of the sensor -/

theorem moves_captureComplete (s : State) : Moves s (captureComplete s) := by
  dsimp only [captureComplete]
  split
  · exact .refl
  · split
    · have hbreath := Move.breath (s := s)
        { s.breath with baseline := some (min Config.baselineMax (s.breath.captureSum / 16)), previousNet := 0 } Iff.rfl
      split
      · exact (Relation.ReflTransGen.single hbreath).trans (moves_raise _ _)
      · exact .single hbreath
    · exact .refl

theorem moves_recomputeLead (s : State) : Moves s (recomputeLead s) := by
  dsimp only [recomputeLead]
  split
  · exact .refl
  · exact .single (.lead _ (fold_le _))

theorem moves_takeCandidate (c : Candidate) (s : State) : Moves s (takeCandidate c s) := by
  unfold takeCandidate
  split
  · exact .refl
  · split
    · exact .refl
    · next n _ => exact .head (.resolver { s.resolver with taken := n } rfl id) (moves_recomputeLead _)

theorem moves_shiftOctave (f : Int → Int) (s : State) : Moves s (shiftOctave f s) :=
  .head (.resolver { s.resolver with octaveShift := f s.resolver.octaveShift } rfl id) (moves_recomputeLead _)

theorem moves_swapPrograms (s : State) : Moves s (swapPrograms s) := by
  unfold swapPrograms
  split
  · exact .single (.selector _)
  · exact .refl

theorem moves_act (d : Fin 4) (a : Action) (s : State) : Moves s (act d a s) := by
  cases a with
  | octaveUp => exact moves_shiftOctave _ s
  | octaveDown => exact moves_shiftOctave _ s
  | harmonyToggle => exact .single (.enables (!s.harmony.master) s.harmony.liveRanks)
  | programSwap => exact moves_swapPrograms s
  | report => exact moves_raiseGesture d s

theorem moves_fireDetector (d : Fin 4) (s : State) : Moves s (fireDetector d s) := by
  unfold fireDetector
  split
  · exact .head (.detectors _) (moves_act _ _ _)
  · exact .refl

theorem moves_fireAll (s : State) : Moves s (fireAll s) := moves_foldl (fun s d => moves_fireDetector d s) _ s

theorem moves_fireNext (s : State) : Moves s (fireNext s) := by
  unfold fireNext
  split
  · exact moves_fireDetector _ s
  · exact .refl

theorem recomputeLead_breath (s : State) : (recomputeLead s).breath = s.breath := by
  dsimp only [recomputeLead]
  split
  · rfl
  · exact (voiceWork_deliverLeadChange _).breath

theorem takeCandidate_breath (c : Candidate) (s : State) : (takeCandidate c s).breath = s.breath := by
  unfold takeCandidate
  split
  · rfl
  · split
    · rfl
    · exact recomputeLead_breath _

theorem act_breath (d : Fin 4) (a : Action) (s : State) : (act d a s).breath = s.breath := by
  cases a with
  | octaveUp => exact recomputeLead_breath _
  | octaveDown => exact recomputeLead_breath _
  | harmonyToggle => exact (voiceWork_changeEnables s).breath
  | programSwap => simp only [act, swapPrograms]; split <;> rfl
  | report => rfl

theorem fireDetector_breath (d : Fin 4) (s : State) : (fireDetector d s).breath = s.breath := by
  unfold fireDetector
  split
  · exact act_breath _ _ _
  · rfl

theorem fireAll_breath (s : State) : (fireAll s).breath = s.breath := by
  simp [fireAll, allDetectors, fireDetector_breath]

theorem moves_onsetEnd (s : State) : Moves s (onsetEnd s) := by
  dsimp only [onsetEnd]
  split
  · next h =>
    have hfire := moves_fireAll s
    have hbreath := fireAll_breath s
    split
    · next c _ =>
      refine (hfire.trans (moves_takeCandidate c _)).tail (.start _ ?_ rfl)
      rw [takeCandidate_breath, hbreath]; exact h.1
    · refine hfire.tail (.start _ ?_ rfl)
      rw [hbreath]; exact h.1
  · exact .refl

theorem moves_resolveFrame (img : Image) (keys : BitVec 24) (s : State) : Moves s (resolveFrame img keys s) := by
  have hframe : Move s { s with resolver := s.resolver.frame img keys } := by
    refine .resolver _ rfl fun ⟨⟨hmissed, hunresolved, hrest⟩, hports⟩ => ⟨⟨hmissed, ?_, hrest⟩, hports⟩
    dsimp only [Resolver.frame]
    split
    · exact countUp_le _
    · exact hunresolved
  dsimp only [resolveFrame]
  split
  · split
    · exact .head hframe (moves_takeCandidate _ _)
    · exact .single hframe
  · exact .single hframe

theorem moves_endNote (b : Breath) (s : State) : Moves s (endNote { s with breath := b }) :=
  .single (.release { b with articulation := .silent } nofun)

theorem moves_evaluateBreath (img : Image) (z : Nat) (frame : SensorFrame) (s : State) : Moves s (evaluateBreath img z frame s) := by
  dsimp only [evaluateBreath]
  generalize hb : s.breath.measure img z frame.breath frame.lip s.bendParameters.1 s.bendParameters.2 = b
  have hart : b.articulation = s.breath.articulation := by rw [← hb]; rfl
  split
  · next h =>
    refine .single (.breath _ ?_)
    have hout : (b.fromSilent img s.onsetFrames).articulation ≠ .sounding := by
      unfold Breath.fromSilent; split <;> simp [h]
    rw [← hart, h]
    simp [hout]
  · next h =>
    refine .single (.breath _ ?_)
    have hout : (b.fromOnset img s.onsetFrames).articulation ≠ .sounding := by
      unfold Breath.fromOnset; split <;> simp [h]
    rw [← hart, h]
    simp [hout]
  · split
    · exact moves_endNote b s
    · exact .single (.breath _ (by rw [hart]))

theorem moves_breatheFrame (img : Image) (frame : SensorFrame) (s : State) : Moves s (breatheFrame img frame s) := by
  unfold breatheFrame
  split
  · exact moves_evaluateBreath _ _ _ _
  · split
    · exact .single (.breath _ Iff.rfl)
    · exact .refl

theorem moves_receiveFrame (frame : SensorFrame) (s : State) : Moves s (receiveFrame frame s) := by
  have hsensor := Move.sensor (s := s) 
    { receiver := .receiving
      missingTimer := 0
      lastFrame := some frame
      missedFrames := min Config.counterMax (s.sensor.missedFrames + skipped s.sensor.lastFrame frame.seq) }
    fun ⟨⟨_, hrest⟩, hports⟩ => ⟨⟨Nat.min_le_left _ _, hrest⟩, hports⟩
  dsimp only [receiveFrame]
  split
  · exact .head hsensor (moves_raise _ _)
  · exact .single hsensor

theorem moves_takeBurst (burst : List Byte) (s : State) : Moves s (takeBurst burst s) := by
  unfold takeBurst
  split
  · exact .refl
  · next frame _ =>
    refine (moves_receiveFrame frame s).trans ?_
    dsimp only [passFrame]
    split
    · exact .refl
    · next img _ =>
      exact ((moves_resolveFrame img _ _).trans (moves_breatheFrame img frame _)).tail (.detectors _)

theorem loseBreath_breath (img : Image) (s : State) : ∃ b : Breath, b.articulation = s.breath.articulation ∧
    loseBreath img s =
      if b.articulation = .sounding then endNote { s with breath := b }
      else if b.articulation = .onset then { s with breath := { b with articulation := .silent, onsetEnding := false } }
      else { s with breath := b } := by
  cases hz : s.breath.baseline with
  | some z =>
    refine ⟨{ s.breath with net := 0, level := img.curve.getD 0 0, levelClass := levelClassOf (img.curve.getD 0 0) }, rfl, ?_⟩
    cases hart : s.breath.articulation <;> simp [loseBreath, hz, hart]
  | none =>
    refine ⟨s.breath, rfl, ?_⟩
    cases hart : s.breath.articulation <;> simp [loseBreath, hz, hart]

theorem moves_loseBreath (img : Image) (s : State) : Moves s (loseBreath img s) := by
  obtain ⟨b, hart, heq⟩ := loseBreath_breath img s
  rw [heq]
  split
  · exact moves_endNote b s
  · split
    · next h => exact .single (.breath _ (by simp [← hart, h]))
    · exact .single (.breath _ (by rw [hart]))

theorem moves_sensorLost (s : State) : Moves s (sensorLost s) := by
  dsimp only [sensorLost]
  split
  · have hlost : Moves s (raise .sensorLost { s with sensor := { s.sensor with receiver := .lost } }) :=
      .head (.sensor { s.sensor with receiver := .lost } id) (moves_raise _ _)
    split
    · exact hlost.trans (moves_loseBreath _ _)
    · exact hlost
  · exact .refl

end Sys2Proof.Machine

/-!
The operations of a boundary, of the line and of the peers' frames as runs of moves.
-/

namespace Sys2Proof.Machine

/-! ### Ranks -/

theorem moves_makeLocal (r : Fin 3) (s : State) : Moves s (makeLocal r s) := by
  unfold makeLocal
  split
  · next h => exact .single (.rank r _ ⟨rfl, rfl, rfl⟩ (.inr ⟨h, .inr rfl⟩))
  · exact .refl

theorem moves_staleClaim (r : Fin 3) (s : State) : Moves s (staleClaim r s) := by
  unfold staleClaim
  split
  · exact (moves_removeRecords _ _).trans (moves_makeLocal _ _)
  · exact .refl

theorem moves_claimConfirm (r : Fin 3) (s : State) : Moves s (claimConfirm r s) := by
  unfold claimConfirm
  split
  · next h => exact .single (.confirm r (.inl h.1))
  · exact .refl

theorem moves_localResolution (r : Fin 3) (s : State) : Moves s (localResolution r s) := by
  unfold localResolution
  split
  · next h =>
    split
    · split
      · exact .single (.yields r)
      · exact .single (.confirm r (.inr h.1))
    · exact .single (.rank r _ ⟨rfl, rfl, rfl⟩ (.inl rfl))
  · exact .refl

theorem moves_openWindow (number : Byte) (s : State) : Moves s (openWindow number s) := by
  unfold openWindow
  split
  · next r h =>
    have hr := List.find?_some h
    simp only [Bool.and_eq_true, decide_eq_true_eq] at hr
    exact .single (.rank r _ ⟨rfl, rfl, rfl⟩ (.inr ⟨hr.1, .inl rfl⟩))
  · exact .refl

/-! ### Settings -/

/-- The waiting settings and their marks, each of which may be dropped. -/
theorem moves_panel_waits (s : State) (p : Panel) (hin : p.inFifo = s.panel.inFifo) (hout : p.outFifo = s.panel.outFifo)
    (htranspose : ∀ v ∈ p.waitTranspose, v ∈ s.panel.waitTranspose) (htuning : ∀ v ∈ p.waitTuning, v ∈ s.panel.waitTuning)
    (hkey : ∀ x ∈ p.waitKey, x ∈ s.panel.waitKey) : Moves s { s with panel := p } :=
  .single (.panel p fun ⟨hcount, hfifo, hsample, hsent, hlive, htune, hwaitT, hwaitU, hk, hwaitK⟩ =>
    ⟨hcount, by rw [show ({ s with panel := p } : State).panel = p from rfl, hin, hout]; exact hfifo, hsample, hsent, hlive, htune,
      fun v hv => hwaitT v (htranspose v hv), fun v hv => hwaitU v (htuning v hv), hk, fun x hx => hwaitK x (hkey x hx)⟩)

theorem moves_recomputeInstalled (s : State) : Moves s (recomputeInstalled s) := by
  unfold recomputeInstalled
  split
  · exact moves_recomputeLead s
  · exact .refl

theorem moves_takeTranspose (s : State) : Moves s (takeTranspose s) := by
  dsimp only [takeTranspose]
  have hwait := fun t : State => moves_panel_waits t { t.panel with waitTranspose := none, transposeDue := false } rfl rfl
    nofun (fun _ h => h) fun _ h => h
  split
  · split
    · next v hv =>
      have hlive := Move.resolver (s := s) { s.resolver with transpose := v } rfl
        fun ⟨hcount, hfifo, hsample, hsent, _, htune, hwaitT, hrest⟩ =>
          ⟨hcount, hfifo, hsample, hsent, hwaitT v hv, htune, hwaitT, hrest⟩
      exact .head hlive ((hwait _).trans (moves_recomputeInstalled _))
    · exact hwait s
  · exact .refl

theorem moves_takeTuning (s : State) : Moves s (takeTuning s) := by
  dsimp only [takeTuning]
  have hwait := fun t : State => moves_panel_waits t { t.panel with waitTuning := none, tuningDue := false } rfl rfl
    (fun _ h => h) nofun fun _ h => h
  split
  · split
    · next v hv =>
      have hlive := Move.pitch (s := s) { s.pitch with tuning := v }
        fun ⟨hcount, hfifo, hsample, hsent, hlive, _, hwaitT, hwaitU, hrest⟩ =>
          ⟨hcount, hfifo, hsample, hsent, hlive, hwaitU v hv, hwaitT, hwaitU, hrest⟩
      exact .head hlive (hwait _)
    · exact hwait s
  · exact .refl

theorem moves_takeKey (s : State) : Moves s (takeKey s) := by
  dsimp only [takeKey]
  have hwait := fun t : State => moves_panel_waits t { t.panel with waitKey := none, keyDue := false } rfl rfl
    (fun _ h => h) (fun _ h => h) nofun
  split
  · split
    · next k scale hk =>
      have hlive := Move.key (s := s) k scale fun ⟨_, _, _, _, _, _, _, _, _, hwaitK⟩ => hwaitK _ hk
      exact .head hlive (hwait _)
    · exact hwait s
  · exact .refl

theorem moves_takeRanks (s : State) : Moves s (takeRanks s) := by
  dsimp only [takeRanks]
  have hwait := moves_panel_waits s { s.panel with waitRanks := none, ranksDue := false } rfl rfl
    (fun _ h => h) (fun _ h => h) fun _ h => h
  split
  · split
    · next live _ => exact hwait.tail (.enables s.harmony.master live)
    · exact hwait
  · exact .refl

/-! ### The boundary -/

theorem moves_evaluatePitch (s : State) : Moves s (evaluatePitch s) := by
  dsimp only [evaluatePitch]
  have hglide : Moves s (mapVoices s.glide s) := .single .glide
  have hroot := Move.pitch (s := mapVoices s.glide s) ((mapVoices s.glide s).pitch.rootStage (mapVoices s.glide s).candidateRoot)
    fun ⟨hcount, hfifo, hsample, hsent, hlive, htune, hrest⟩ =>
      ⟨hcount, hfifo, hsample, hsent, hlive, by
        have : ∀ (p : Pitch) (c : Option Nat), (p.rootStage c).tuning = p.tuning := by
          intro p c
          unfold Pitch.rootStage
          split
          · rfl
          · rfl
          · split
            · rfl
            · split <;> rfl
        rw [this]; exact htune, hrest⟩
  split
  · exact hglide.tail hroot
  · exact (hglide.tail hroot).tail .tune

theorem moves_rootSettled (s : State) : Moves s (rootSettled s) := by
  unfold rootSettled
  split
  · have hadopt := Move.pitch (s := s) { s.pitch with root := s.pitch.previousRoot, settleCount := 0 } id
    exact (Relation.ReflTransGen.single hadopt).tail .tune
  · exact .refl

theorem Rank.tick_keeps (k : Rank) : (k.tick.claim = k.claim ∧ k.tick.refused = k.refused ∧ k.tick.slot = k.slot) ∧
    k.tick.stage = k.stage := by
  unfold Rank.tick; split <;> simp_all

theorem SectionMap.Ok.tick {own : Fin 8} {m : SectionMap} (h : m.Ok own) :
    SectionMap.Ok own { m with stations := m.stations.map StationRecord.tick } := by
  obtain ⟨horder, hentries, hown, hage⟩ := h
  refine ⟨horder, fun e he => ?_, ?_, fun st => ?_⟩
  · obtain ⟨hne, hpresent, hrange⟩ := hentries e he
    refine ⟨hne, ?_, hrange⟩
    rw [Eight.get_map, StationRecord.tick, if_pos hpresent]; exact hpresent
  · rw [Eight.get_map, hown]; rfl
  · have := hage st
    rw [Eight.get_map, StationRecord.tick]
    split
    · exact Nat.min_le_left _ _
    · exact hage st

theorem lineOk_tick {s : State} (h : s.LineOk) : State.LineOk { s with line := s.line.tick } := by
  unfold Line.tick
  split <;> exact h

theorem portsOk_lineTick {s : State} (h : s.PortsOk) : State.PortsOk { s with line := s.line.tick } := by
  unfold Line.tick
  split <;> exact h

theorem moves_tickAll (s : State) : Moves s (tickAll s) := by
  have hsensor : Move s { s with sensor := s.sensor.tick } :=
    .sensor _ fun h => by unfold Sensor.tick; split <;> exact h
  have hrank : ∀ (t : State) (r : Fin 3), Move t (setRank r (t.rank r).tick t) := fun t r =>
    .rank r _ (Rank.tick_keeps _).1 (.inl (Rank.tick_keeps _).2)
  have hmap : ∀ t : State, Move t { t with map := { t.map with stations := t.map.stations.map StationRecord.tick } } := fun t =>
    .map _ [] SectionMap.Ok.tick fun _ he => .inl he
  have hline : ∀ t : State, Move t { t with line := t.line.tick } := fun t => .line _ lineOk_tick portsOk_lineTick
  have haudio : ∀ t : State, Move t { t with audio := { t.audio with sampleIndex := 0 } } := fun t => .audio _ id
  have hpanel : ∀ t : State, Moves t { t with panel := t.panel.tick } := fun t =>
    moves_panel_waits t _ rfl rfl (fun _ h => h) (fun _ h => h) fun _ h => h
  exact (((((((Relation.ReflTransGen.single hsensor).tail (hrank _ 0)).tail (hrank _ 1)).tail (hrank _ 2)).tail (hmap _)).tail
    (hline _)).tail (haudio _)).trans (hpanel _)

theorem moves_boundary (s : State) : Moves s (boundary s) :=
  .head .gains ((moves_evaluatePitch _).trans (moves_tickAll _))

/-! ### The map -/

theorem SectionMap.Ok.setStation {own st : Fin 8} {m : SectionMap} (h : m.Ok own) {x : StationRecord} {es : List MapEntry}
    (horder : InOrder es) (hage : x.age ≤ Config.expiryAge) (hx : st = own → x = { present := false, age := 0 })
    (hes : ∀ e ∈ es, (e ∈ m.entries ∧ e.station ≠ st) ∨
      (e.station = st ∧ st ≠ own ∧ x.present = true ∧ e.note ≤ 127 ∧ e.levelClass ≤ 3)) :
    SectionMap.Ok own { entries := es, stations := m.stations.set st x } := by
  obtain ⟨-, hentries, hown, hages⟩ := h
  refine ⟨horder, fun e he => ?_, ?_, fun u => ?_⟩
  · rw [Eight.get_set]
    obtain ⟨hold, hne⟩ | ⟨rfl, hne, hpresent, hrange⟩ := hes e he
    · rw [if_neg hne]; exact hentries e hold
    · rw [if_pos rfl]; exact ⟨hne, hpresent, hrange⟩
  · rw [Eight.get_set]
    split
    · next h => exact hx h.symm
    · exact hown
  · rw [Eight.get_set]
    split
    · exact hage
    · exact hages u

/-- A frame of a peer makes it present at age 0 (R121). -/
theorem SectionMap.Ok.refresh {own st : Fin 8} {m : SectionMap} (h : m.Ok own) (hst : st ≠ own) :
    SectionMap.Ok own { m with stations := m.stations.set st { present := true, age := 0 } } := by
  refine h.setStation h.1 (Nat.zero_le _) (fun he => absurd he hst) fun e he => ?_
  obtain ⟨-, -, hrange⟩ := h.2.1 e he
  by_cases heq : e.station = st
  · exact .inr ⟨heq, hst, rfl, hrange⟩
  · exact .inl ⟨he, heq⟩

theorem SectionMap.Ok.setEntries {own : Fin 8} {m : SectionMap} (h : m.Ok own) {es : List MapEntry} (horder : InOrder es)
    (hes : ∀ e ∈ es, e ∈ m.entries ∨ (e.station ≠ own ∧ (m.stations.get e.station).present = true ∧ e.note ≤ 127 ∧ e.levelClass ≤ 3)) :
    SectionMap.Ok own { m with entries := es } :=
  ⟨horder, fun e he => (hes e he).elim (h.2.1 e) id, h.2.2⟩

theorem moves_stationExpiry (st : Fin 8) (s : State) : Moves s (stationExpiry st s) := by
  unfold stationExpiry
  split
  · refine .single (.map { entries := removeStation st s.map.entries, stations := s.map.stations.set st { present := false, age := 0 } }
      [] (fun h => ?_) fun e he => .inl (mem_removeStation.1 he).1)
    exact h.setStation (removeStation_inOrder h.1) (Nat.zero_le _) (fun _ => rfl) fun e he => .inl (mem_removeStation.1 he)
  · exact .refl

theorem moves_refreshStation {st : Fin 8} {s : State} (h : st ≠ s.power.station) : Moves s (refreshStation st s) :=
  .single (.map _ [] (·.refresh h) fun _ he => .inl he)

/-- What every frame of a peer does first: the frame is over, its sender present (R121, R154). -/
theorem moves_peerPresent {st : Fin 8} {s : State} (h : st ≠ s.power.station) : Moves s (refreshStation st (frameOver s)) :=
  (moves_frameOver s).trans (moves_refreshStation h)

theorem present_refreshStation (st : Fin 8) (s : State) :
    ((refreshStation st s).map.stations.get st).present = true := by
  simp [refreshStation]

theorem eq_or_mem_of_mem_insertEntry {e x : MapEntry} {es : List MapEntry} (h : x ∈ insertEntry e es) : x = e ∨ x ∈ es := by
  induction es with
  | nil => simpa [insertEntry] using h
  | cons y ys ih => grind [insertEntry]

theorem moves_peerNoteStart (frame : List Byte) (s : State) : Moves s (peerNoteStart frame s) := by
  dsimp only [peerNoteStart]
  split
  · next st t n role c h =>
    obtain ⟨hgood, -, hst⟩ := peerFrame_eq_some.1 h
    have hrange := inRange_of_verdict_good hgood
    let e : MapEntry := { station := st, tag := t, note := n, role := role, levelClass := c }
    refine (moves_peerPresent hst).tail (.map
      { (refreshStation st (frameOver s)).map with entries := insertEntry e (refreshStation st (frameOver s)).map.entries } [e]
      (fun hok => hok.setEntries (insertEntry_inOrder hok.1) fun x hx => ?_) fun x hx => ?_)
    · obtain rfl | hold := eq_or_mem_of_mem_insertEntry hx
      · exact .inr ⟨hst, present_refreshStation st _, hrange⟩
      · exact .inl hold
    · obtain rfl | hold := eq_or_mem_of_mem_insertEntry hx
      · exact .inr (List.mem_singleton_self _)
      · exact .inl hold
  · exact .refl

theorem moves_peerNoteEnd (frame : List Byte) (s : State) : Moves s (peerNoteEnd frame s) := by
  dsimp only [peerNoteEnd]
  split
  · next st t h =>
    obtain ⟨-, -, hst⟩ := peerFrame_eq_some.1 h
    exact (moves_peerPresent hst).tail (.map _ [] (fun hok => hok.setEntries (removeEntry_inOrder hok.1) fun x hx =>
      .inl (List.mem_of_mem_filter hx)) fun x hx => .inl (List.mem_of_mem_filter hx))
  · exact .refl

/-- What a ROSTER lists is in the map once it has been placed, and nothing else of its station (R127). -/
theorem mem_replaceStation_station {st : Fin 8} {listed : List RosterEntry} {es : List MapEntry} {x : MapEntry}
    (h : x ∈ replaceStation st listed es) : (∃ y ∈ listed, x = y.entry st) ∨ (x ∈ es ∧ x.station ≠ st) := by
  have hfold : ∀ (l : List RosterEntry) (es : List MapEntry), x ∈ l.foldl (fun acc e => insertEntry (e.entry st) acc) es →
      (∃ y ∈ l, x = y.entry st) ∨ x ∈ es := by
    intro l
    induction l with
    | nil => exact fun es h => .inr h
    | cons y ys ih =>
      intro es hx
      obtain ⟨z, hz, rfl⟩ | hx := ih _ hx
      · exact .inl ⟨z, List.mem_cons_of_mem _ hz, rfl⟩
      · exact (eq_or_mem_of_mem_insertEntry hx).imp (fun h => ⟨y, List.mem_cons_self, h⟩) id
  exact (hfold listed _ h).imp id mem_removeStation.1

theorem moves_peerRoster (frame : List Byte) (s : State) : Moves s (peerRoster frame s) := by
  dsimp only [peerRoster]
  split
  · next st es h =>
    obtain ⟨hgood, -, hst⟩ := peerFrame_eq_some.1 h
    have hrange := (inRange_of_verdict_good hgood).2
    refine (moves_peerPresent hst).tail (.map
      { (refreshStation st (frameOver s)).map with entries := replaceStation st es (refreshStation st (frameOver s)).map.entries } _
      (fun hok => hok.setEntries (replaceStation_inOrder st es hok.1) fun x hx => ?_) fun x hx => ?_)
    · obtain ⟨y, hy, rfl⟩ | ⟨hold, -⟩ := mem_replaceStation_station hx
      · exact .inr ⟨hst, present_refreshStation st _, hrange y hy⟩
      · exact .inl hold
    · obtain ⟨y, hy, rfl⟩ | ⟨hold, -⟩ := mem_replaceStation_station hx
      · exact .inr (List.mem_filter.2 ⟨hx, decide_eq_true rfl⟩)
      · exact .inl hold
  · exact .refl

theorem moves_peerClaim (frame : List Byte) (s : State) : Moves s (peerClaim frame s) := by
  dsimp only [peerClaim]
  split
  · next st k n h =>
    obtain ⟨-, -, hst⟩ := peerFrame_eq_some.1 h
    have hyields : ∀ t : State, Moves t (allRanks.foldl (fun s r =>
        if (s.rank r).claims n && (s.rank r).inStage [.queued, .localPending] then yieldRank r s else s) t) := by
      refine moves_foldl (fun t r => ?_) _
      split
      · exact .single (.yields r)
      · exact .refl
    have hpresent := (moves_peerPresent hst).trans (hyields _)
    split
    · exact hpresent.trans (moves_enqueue _ _)
    · exact hpresent
  · exact .refl

theorem moves_peerHeld (frame : List Byte) (s : State) : Moves s (peerHeld frame s) := by
  dsimp only [peerHeld]
  split
  · next st addressed k n _ h =>
    obtain ⟨-, -, hst⟩ := peerFrame_eq_some.1 h
    split
    · split
      · exact (moves_peerPresent hst).tail (.yields _)
      · exact moves_peerPresent hst
    · exact moves_peerPresent hst
  · exact .refl

end Sys2Proof.Machine

/-!
The line's own steps, the Render Engine, the loads, the panel, and the whole of a step as runs of moves.
-/

namespace Sys2Proof.Machine

/-! ### Line states -/

/-- A line may enter ACTIVE with its error counter at 0 once the start-up load has ended (R137, R139). -/
theorem moves_enterActive {s : State} (h : s.line.state = .joining ∨ (s.line.state = .listenOnly ∧ s.line.errorCounter = 0)) :
    Moves s (enterActive s) := by
  have hactive : Move s { s with line := { s.line with state := .active, rosterTimer := none } } := by
    refine .line _ (fun ⟨hqueue, hidle, hmark, _, hdisabled, hstart, hmax⟩ => ?_) id
    have herror : s.line.errorCounter = 0 := h.elim (fun hj => hdisabled (.inr hj)) (·.2)
    have hdone : s.loader.startUpDone ≠ false := fun hf => by
      have := hstart hf
      obtain hj | ⟨hl, -⟩ := h <;> simp_all
    refine ⟨hqueue, nofun, hmark, fun _ => ?_, by simp, fun hf => absurd hf hdone, hmax⟩
    rw [herror]; decide
  exact .head hactive ((moves_raise _ _).trans (moves_enqueue _ _))

theorem moves_joiningComplete (s : State) : Moves s (joiningComplete s) := by
  unfold joiningComplete
  split
  · next h => exact moves_enterActive (.inl h.1)
  · exact .refl

theorem moves_listenOnlyEnd (s : State) : Moves s (listenOnlyEnd s) := by
  unfold listenOnlyEnd
  split
  · next h => exact moves_enterActive (.inr h)
  · exact .refl

theorem moves_decayExpiry (s : State) : Moves s (decayExpiry s) := by
  unfold decayExpiry
  split
  · refine .single (.line _ (fun ⟨hqueue, hidle, hmark, hactive, hdisabled, hstart, hmax⟩ => ?_) id)
    exact ⟨hqueue, hidle, hmark, fun h => (Nat.sub_le _ _).trans_lt (hactive h), fun h => by simp [hdisabled h], hstart,
      (Nat.sub_le _ _).trans hmax⟩
  · exact .refl

theorem moves_rosterExpiry (s : State) : Moves s (rosterExpiry s) := by
  unfold rosterExpiry
  split
  · exact moves_enqueue _ _
  · exact .refl

theorem moves_makeLocals (s : State) : Moves s (allRanks.foldl (fun s r => makeLocal r s) s) :=
  moves_foldl (fun s r => moves_makeLocal r s) _ s

theorem moves_leaveActive {dest : LineState} {s : State} (h : Move s
    { s with line := { s.line with state := dest, queue := [], underWay := none, rosterTimer := none } }) :
    Moves s (leaveActive dest s) :=
  (Relation.ReflTransGen.single h).trans (moves_makeLocals _)

/-- A line that drops its queue and its frame, in a state that may hold an error counter (R138). -/
theorem lineOk_left {s : State} (h : s.LineOk) {x : Line} (hdone : s.line.state ≠ .disabled) (hqueue : x.queue = [])
    (hunder : x.underWay = none) (hstate : x.state = .listenOnly ∨ x.state = .duplicateHold)
    (herror : x.errorCounter ≤ Config.errorMax) : State.LineOk { s with line := x } := by
  obtain ⟨-, -, -, -, -, hstart, -⟩ := h
  have hne : ∀ y : LineState, y ≠ .listenOnly → y ≠ .duplicateHold → x.state ≠ y := by
    rintro y h1 h2 rfl; exact hstate.elim h1 h2
  refine ⟨by rw [hqueue]; exact QueueOk.nil, fun _ => ⟨hqueue, hunder⟩, fun _ => by simp [hqueue],
    fun h => absurd h (hne _ (by decide) (by decide)), fun h => ?_, fun h => absurd (hstart h) hdone, herror⟩
  exact h.elim (fun h => absurd h (hne _ (by decide) (by decide))) fun h => absurd h (hne _ (by decide) (by decide))

theorem moves_duplicateFrame (frame : List Byte) (s : State) : Moves s (duplicateFrame frame s) := by
  dsimp only [duplicateFrame]
  split
  · split
    · next f _ h =>
      have hdone : s.line.state ≠ .disabled := by simpa [State.receives] using h.1
      have hraise := (moves_frameOver s).trans (moves_raise .duplicateStation _)
      split
      · refine hraise.trans (moves_leaveActive (.line _ (fun hok => ?_) id))
        exact lineOk_left hok hdone rfl rfl (.inr rfl) hok.2.2.2.2.2.2
      · next hact =>
        refine hraise.tail (.line _ (fun hok => ?_) id)
        obtain ⟨hqueue, hunder⟩ := hok.2.1 hact
        exact lineOk_left hok hdone hqueue hunder (.inr rfl) hok.2.2.2.2.2.2
    · exact .refl
  · exact .refl

/-! ### Sending -/

theorem QueueOk.map_mark {q : List Queued} (h : QueueOk q) {f : Queued → Queued} (hrecord : ∀ y, (f y).record = y.record)
    (habandons : ∀ y ∈ q, (f y).abandons < Config.abandonLimit) (hunder : (q.map f).countP (fun y => y.underWay) ≤ 1) :
    QueueOk (q.map f) := by
  obtain ⟨hsorted, hlength, hnote, hclaim, hroster, -, -⟩ := h
  refine ⟨?_, by simpa using hlength, fun t => ?_, fun r => ?_, ?_, by simpa using habandons, hunder⟩
  · rw [List.pairwise_map]; simpa only [hrecord] using hsorted
  · rw [List.countP_map]; simpa only [Function.comp_def, hrecord] using hnote t
  · rw [List.countP_map]; simpa only [Function.comp_def, hrecord] using hclaim r
  · rw [List.countP_map]; simpa only [Function.comp_def, hrecord] using hroster

theorem countP_unmark (q : List Queued) {f : Queued → Queued} (h : ∀ y, (f y).underWay = false) :
    (q.map f).countP (fun y => y.underWay) = 0 := by
  rw [List.countP_map, List.countP_eq_zero]; simp [h]

theorem moves_transmitStart (s : State) : Moves s (transmitStart s) := by
  unfold transmitStart
  split
  · next head rest hqueue hunder =>
    split
    · next hact =>
      refine .single (.line _ (fun ⟨hq, hidle, hmark, hrest⟩ => ⟨?_, fun h => absurd hact h, nofun, hrest⟩) id)
      have hclear := hmark hunder
      rw [hqueue] at hq hclear
      have hzero : rest.countP (fun y => y.underWay) = 0 := by
        rw [List.countP_eq_zero]
        exact fun y hy => by simp [hclear y (List.mem_cons_of_mem _ hy)]
      obtain ⟨hsorted, hlength, hnote, hclaim, hroster, habandons, -⟩ := hq
      refine ⟨?_, hlength, fun t => ?_, fun r => ?_, ?_, ?_, ?_⟩
      · rw [List.pairwise_cons] at hsorted ⊢; exact hsorted
      · have := hnote t; simpa only [List.countP_cons] using this
      · have := hclaim r; simpa only [List.countP_cons] using this
      · simpa only [List.countP_cons] using hroster
      · rw [List.forall_mem_cons] at habandons ⊢; exact habandons
      · simp [hzero]
    · exact .refl
  · exact .refl

theorem moves_arbitrationLost (winner : Byte) (s : State) : Moves s (arbitrationLost winner s) := by
  unfold arbitrationLost
  split
  · split
    · refine .single (.line _ (fun ⟨hq, hidle, _, hrest⟩ => ⟨?_, fun h => ⟨?_, rfl⟩, fun _ => ?_, hrest⟩) id)
      · exact hq.map_mark (fun _ => rfl) hq.2.2.2.2.2.1 (by rw [countP_unmark _ fun _ => rfl]; decide)
      · rw [(hidle h).1]; rfl
      · simp [unmark]
    · exact .refl
  · exact .refl

/-- Of the records marked as under way there is one (R151). -/
theorem QueueOk.marked_unique {q : List Queued} (h : QueueOk q) {x y : Queued} (hx : x ∈ q) (hy : y ∈ q) (mx : x.underWay = true)
    (my : y.underWay = true) : x = y := by
  have hlen : (q.filter fun z => z.underWay).length ≤ 1 := by
    rw [← List.countP_eq_length_filter]; exact h.2.2.2.2.2.2
  have hx' : x ∈ q.filter fun z => z.underWay := List.mem_filter.2 ⟨hx, mx⟩
  have hy' : y ∈ q.filter fun z => z.underWay := List.mem_filter.2 ⟨hy, my⟩
  match hq : q.filter fun z => z.underWay with
  | [] => simp [hq] at hx'
  | [z] =>
    rw [hq, List.mem_singleton] at hx' hy'
    exact hx'.trans hy'.symm
  | _ :: _ :: _ => simp [hq] at hlen

/-- The line right after a bit error, before the record is dealt with (R154, steps 1 and 2). -/
abbrev Line.struck (l : Line) : Line :=
  { l with
    errorCounter := min Config.errorMax (l.errorCounter + Config.errorRise), underWay := none, readingAbandoned := true }

/-- With a frame under way the line is ACTIVE; struck by an error below the limit it keeps its law with a queue that has no mark left. -/
theorem lineOk_struck {s : State} (h : s.LineOk) {p : Payload} (hp : s.line.underWay = some p)
    (hlimit : ¬ Config.errorLimit ≤ s.line.struck.errorCounter) {q : List Queued} {dropped : Nat} (hq : QueueOk q)
    (hunder : ∀ y ∈ q, y.underWay = false) :
    State.LineOk { s with line := { s.line.struck with queue := q, recordsDropped := dropped } } := by
  obtain ⟨-, hidle, -, -, -, hstart, -⟩ := h
  have hact : s.line.state = .active := by
    by_contra hne
    have := (hidle hne).2
    simp [hp] at this
  exact ⟨hq, fun hne => absurd hact hne, fun _ => hunder, fun _ => Nat.lt_of_not_le hlimit,
    fun hd => by rw [hact] at hd; simp at hd, hstart, Nat.min_le_left _ _⟩

theorem moves_recordDropped (r : Record) (s : State) : Moves s (recordDropped r s) := by
  unfold recordDropped
  split
  · exact moves_makeLocal _ _
  · exact .single (.line _ id id)
  · exact .refl

/-- A bit error below the limit: the struck line with its record retried, dropped, or no longer there (R151, R154). -/
theorem moves_abandonRecord {s : State} {p : Payload} (hp : s.line.underWay = some p)
    (hlimit : ¬ Config.errorLimit ≤ s.line.struck.errorCounter) :
    Moves s (abandonRecord { s with line := s.line.struck }) := by
  unfold abandonRecord
  split
  · next hnone =>
    have hclear : ∀ y ∈ s.line.queue, y.underWay = false := by
      simpa [Line.marked, List.find?_eq_none] using hnone
    exact .single (.line s.line.struck (fun hok => lineOk_struck hok hp hlimit hok.1 hclear) id)
  · next y hy =>
    have hmem : y ∈ s.line.queue := List.mem_of_find?_eq_some hy
    have hmark : y.underWay = true := List.find?_some hy
    split
    · next hcount =>
      refine .single (.line { s.line.struck with queue := retryMarked s.line.queue }
        (fun hok => lineOk_struck hok hp hlimit (hok.1.map_mark (fun z => ?_) (fun z hz => ?_) ?_) fun z hz => ?_) id)
      · split <;> rfl
      · split
        · next hz' => rw [hok.1.marked_unique hz hmem hz' hmark]; exact hcount
        · exact hok.1.2.2.2.2.2.1 z hz
      · rw [countP_unmark]
        · decide
        · intro z; split <;> simp_all
      · obtain ⟨w, -, rfl⟩ := List.mem_map.1 hz
        split <;> simp_all
    · refine Relation.ReflTransGen.trans (.single ?_) (moves_recordDropped _ _)
      refine .line _ (fun hok => ?_)
        fun ⟨⟨hmissed, hunresolved, hbad, _, hrest⟩, hports⟩ => ⟨⟨hmissed, hunresolved, hbad, countUp_le _, hrest⟩, hports⟩
      exact lineOk_struck hok hp hlimit (hok.1.filter _) fun z hz => by simpa using (List.mem_filter.1 hz).2

theorem moves_bitError (s : State) : Moves s (bitError s) := by
  dsimp only [bitError]
  split
  · exact .refl
  · next p hp =>
    split
    · have hleft : Move s { s with line := { s.line.struck with
          state := .listenOnly, queue := [], underWay := none, rosterTimer := none } } := by
        refine .line _ (fun hok => lineOk_left hok (fun hdis => ?_) rfl rfl (.inl rfl) (Nat.min_le_left _ _)) id
        have := (hok.2.1 (by rw [hdis]; decide)).2
        simp [hp] at this
      refine Relation.ReflTransGen.trans ?_ (moves_raise _ _)
      exact (Relation.ReflTransGen.head hleft (moves_makeLocals _)).tail (.line _ (fun h => h) fun h => h)
    · next hlimit => exact moves_abandonRecord hp hlimit

theorem moves_setAnnounced (t : Fin 8) (b : Bool) (s : State) : Moves s (setAnnounced t b s) :=
  .single (.slots _ fun u => voice_setAnnounced s t u b)

theorem moves_ownCompletion (p : Payload) (s : State) : Moves s (ownCompletion p s) := by
  unfold ownCompletion
  split
  · exact moves_setAnnounced _ _ _
  · exact moves_setAnnounced _ _ _
  · exact .head (.line { s.line with rosterTimer := some 0 } id id) (moves_foldl (fun s e => moves_setAnnounced _ _ s) _ _)
  · exact moves_openWindow _ _
  · exact .refl

theorem moves_ownFrameComplete (s : State) : Moves s (ownFrameComplete s) := by
  unfold ownFrameComplete
  split
  · exact .refl
  · refine Relation.ReflTransGen.trans (.single ?_) (moves_ownCompletion _ _)
    refine .line _ (fun ⟨hq, hidle, _, hactive, hdisabled, hstart, hmax⟩ => ?_) id
    refine ⟨hq.filter _, fun h => ⟨?_, rfl⟩, fun _ y hy => ?_, fun h => (Nat.sub_le _ _).trans_lt (hactive h), fun h => ?_, hstart,
      (Nat.sub_le _ _).trans hmax⟩
    · simp [dropMarked, (hidle h).1]
    · simpa using (List.mem_filter.1 hy).2
    · simp [hdisabled h]

theorem moves_lineFrameBroken (bits : List Bool) (s : State) : Moves s (lineFrameBroken bits s) := by
  unfold lineFrameBroken
  split
  · split
    · exact moves_frameOver s
    · exact moves_countBadFrame s
  · exact .refl

theorem moves_frameDiscarded (frame : List Byte) (s : State) : Moves s (frameDiscarded frame s) := by
  unfold frameDiscarded
  split
  · split
    · exact moves_frameOver s
    · exact (moves_frameOver s).trans (moves_countBadFrame _)
  · exact .refl

/-! ### The Render Engine -/

theorem saturate_mem (x : Int) : -8388608 ≤ saturate x ∧ saturate x ≤ 8388607 := clampInt_mem (by decide) x

theorem voice_advancePhase (x : Slot) : (advancePhase x).voice = x.voice := by
  unfold advancePhase; split <;> simp_all

theorem moves_clip (s : State) : Moves s (clip s) :=
  .head (.audio { s.audio with clipCount := countUp s.audio.clipCount }
    fun ⟨⟨hmissed, hunresolved, hbad, hdropped, hheld, _⟩, hports⟩ =>
      ⟨⟨hmissed, hunresolved, hbad, hdropped, hheld, countUp_le _⟩, hports⟩) (moves_raise _ _)

theorem moves_renderSample (s : State) : Moves s (renderSample s) := by
  dsimp only [renderSample]
  have hphase : Move s (mapSlots advancePhase s) :=
    .slots _ fun t => by rw [Eight.get_map, voice_advancePhase]; rfl
  have haudio := fun (t : State) (k : Nat) (sum scaled : Int) (x : Int) =>
    Move.audio (s := t) { t.audio with sampleIndex := k, mix := sum, engineSample := saturate scaled, sent := streamFrame x }
      fun ⟨hcount, hfifo, _, _, hrest⟩ => ⟨hcount, hfifo, saturate_mem _, rfl, hrest⟩
  split
  · exact (Relation.ReflTransGen.single hphase).tail (haudio _ _ _ _ _)
  · exact ((Relation.ReflTransGen.single hphase).tail (haudio _ _ _ _ _)).trans (moves_clip _)

end Sys2Proof.Machine

/-!
The loads, the panel, what comes due, and the whole of a step as runs of moves.
-/

namespace Sys2Proof.Machine

/-! ### Image loads -/

theorem image_none_of_loading {s : State} (h : s.loadingImage = true) : s.image? = none := by
  simp only [State.loadingImage, decide_eq_true_eq] at h
  simp [State.image?, h.1]

theorem moves_rosterAfterLoad (s : State) : Moves s (rosterAfterLoad s) := by
  unfold rosterAfterLoad
  split
  · exact moves_enqueue _ _
  · exact .refl

theorem lineOk_startUpDone {s : State} (h : s.LineOk) :
    ({ s with loader := { s.loader with startUpDone := true } } : State).LineOk := by
  obtain ⟨hqueue, hidle, hmark, hactive, hdisabled, -, hmax⟩ := h
  exact ⟨hqueue, hidle, hmark, hactive, hdisabled, nofun, hmax⟩

theorem moves_imageLoadFault (flash : List Byte) (s : State) : Moves s (imageLoadFault flash s) := by
  unfold imageLoadFault
  split
  · next h =>
    have hend := Move.loadEnd (s := s) .fault none s.resolver.leadNote s.line h.1 (.inl ⟨rfl, rfl⟩) (.inl rfl) lineOk_startUpDone id
    exact .head hend ((moves_raise _ _).trans (moves_rosterAfterLoad _))
  · exact .refl

theorem moves_defaultReadStart (flash : List Byte) (s : State) : Moves s (defaultReadStart flash s) := by
  unfold defaultReadStart
  split
  · next h =>
    split
    · split
      · exact .single (.defaultRead _ h)
      · exact .refl
    · exact .refl
  · exact .refl

theorem pitchOk_of_defaultHeld {img : Image} {flash : List Byte} : ∀ x ∈ img.defaultHeld flash, x.params.PitchOk := by
  intro x hx
  simp only [Image.defaultHeld] at hx
  split at hx
  · simp only [Option.mem_def, Option.map_eq_some_iff] at hx
    obtain ⟨p, hp, rfl⟩ := hx
    exact Image.pitchOk_of_readProgram hp
  · cases hx

/-- The line of a start-up load as its end leaves it (R136). -/
theorem lineOk_startUp {s : State} (h : s.LineOk) (hstart : s.loader.startUpDone = false) (enable : Bool) :
    ({ s with line := { s.line with state := if enable then .joining else .disabled, joiningTimer := 0 },
              loader := { s.loader with startUpDone := true } } : State).LineOk := by
  obtain ⟨hqueue, hidle, hmark, -, hdisabled, hdis, hmax⟩ := h
  have hstate := hdis hstart
  have hne : s.line.state ≠ .active := by rw [hstate]; decide
  refine ⟨hqueue, fun _ => hidle hne, hmark, fun h => ?_, fun _ => hdisabled (.inl hstate), nofun, hmax⟩
  cases enable <;> simp at h

theorem moves_imageLoadComplete (flash : List Byte) (s : State) : Moves s (imageLoadComplete flash s) := by
  dsimp only [imageLoadComplete]
  split
  · next hload =>
    split
    · exact .refl
    · next img himg =>
      have hkey := defaultKey_of_loadImage himg
      -- the load's end, then what the other blocks start with
      have hblocks : ∀ line : Line,
          (s.LineOk → ({ s with line := line, loader := { s.loader with startUpDone := true } } : State).LineOk) →
          (s.PortsOk → State.PortsOk { s with line := line }) →
          Moves s { s with
            loader := { image := .loaded img, reading := none, startUpDone := true }
            banks := banksAfterLoad (img.defaultHeld flash)
            breath := { s.breath with baseline := none, captureCount := 0, captureSum := 0 }
            detectors := detectorsReset
            resolver := { s.resolver with leadNote := s.resolver.computeLead }
            harmony := { s.harmony with key := img.defaultKey, scale := img.defaultScale }
            line := line } := by
        intro line hline hports
        have hend := Move.loadEnd (s := s) (.loaded img) (img.defaultHeld flash) s.resolver.computeLead line hload
          (.inr ⟨img, rfl, mem_just_of_loadImage himg, pitchOk_of_defaultHeld⟩) (.inr (fold_le _)) hline hports
        exact (((Relation.ReflTransGen.single hend).tail
          (.breath { s.breath with baseline := none, captureCount := 0, captureSum := 0 } Iff.rfl)).tail
          (.detectors detectorsReset)).tail (.key _ _ fun _ => hkey)
      have hfault : ∀ t : State, Moves t (if img.defaultHeld flash = none then raise .programFault t else t) := by
        intro t
        split
        · exact moves_raise _ _
        · exact .refl
      cases hdone : s.loader.startUpDone with
      | true =>
        exact ((hblocks s.line lineOk_startUpDone id).trans (hfault _)).trans
          ((moves_raise .imageLoaded _).trans (moves_rosterAfterLoad _))
      | false =>
        have hstart := hblocks _ (lineOk_startUp · hdone img.lineEnable) fun h => h
        simp only [Bool.not_false, lineAfterLoad, if_true]
        by_cases hheld : img.defaultHeld flash = none
        · rw [if_pos hheld]
          exact (hstart.trans (moves_raise .programFault _)).trans (moves_raise .imageLoaded _)
        · rw [if_neg hheld]
          exact hstart.trans (moves_raise .imageLoaded _)
  · exact .refl

/-! ### Banks -/

theorem BankId.other_ne (b : BankId) : b.other ≠ b := by cases b <;> decide

theorem bank_setBank_ne {b c : BankId} (h : c ≠ b) (x : BankState) (s : State) : (setBank b x s).bank c = s.bank c := by
  rw [bank_setBank, if_neg h]

@[simp] theorem bank_setBank_self (b : BankId) (x : BankState) (s : State) : (setBank b x s).bank b = x := by
  rw [bank_setBank, if_pos rfl]

@[simp] theorem referenced_setBank (b c : BankId) (x : BankState) (s : State) : (setBank b x s).referenced c = s.referenced c := by
  cases b <;> rfl

@[simp] theorem image?_setBank (b : BankId) (x : BankState) (s : State) : (setBank b x s).image? = s.image? := by
  cases b <;> rfl

theorem State.bankOk (s : State) (h : s.BanksOk) (b : BankId) : s.BankOk b := by
  cases b
  · exact h.1
  · exact h.2.1

theorem State.held_eq_none_of_no_image {s : State} (h : s.BanksOk) (himage : s.image? = none) (b : BankId) :
    (s.bank b).held? = none := by
  obtain ⟨-, ha, hb⟩ := h.2.2.2.1 himage
  cases b
  · exact ha
  · exact hb

/-- The law of the banks, bank by bank. -/
theorem banksOk_iff (s : State) : s.BanksOk ↔
    (∀ b, s.BankOk b) ∧ (∀ x ∈ s.loader.reading, s.readAgrees x = true) ∧
    (s.image? = none → (∀ t : Fin 8, s.voice t = none) ∧ ∀ b, (s.bank b).held? = none) ∧
    (s.power.resetHeld = true → s.image? = none) := by
  constructor
  · intro h
    have ⟨_, _, hread, himage, hreset⟩ := h
    exact ⟨s.bankOk h, hread, fun hi => ⟨(himage hi).1, s.held_eq_none_of_no_image h hi⟩, hreset⟩
  · rintro ⟨hbank, hread, himage, hreset⟩
    exact ⟨hbank .bankA, hbank .bankB, hread, fun hi => ⟨(himage hi).1, (himage hi).2 .bankA, (himage hi).2 .bankB⟩, hreset⟩

/-- A bank may change where what it holds is its program, while a voice reads it, and it waits only for a voice (R67, R71). -/
theorem banksOk_setBank {s : State} (h : s.BanksOk) {b : BankId} {x : BankState} {reading : Option ReadInFlight}
    (hheld : s.referenced b = true → x.held?.isSome = true) (hwaits : x.waits = true → s.referenced b = true)
    (hread : ∀ c n, reading = some (.programRead c n) → (c = b ∧ x = .loading n) ∨ (c ≠ b ∧ s.bank c = .loading n))
    (himage : s.image? = none → x.held? = none) :
    State.BanksOk { setBank b x s with loader := { s.loader with reading := reading } } := by
  rw [banksOk_iff] at h ⊢
  obtain ⟨hbank, -, hnone, hreset⟩ := h
  have hb : ∀ c, State.bank { setBank b x s with loader := { s.loader with reading := reading } } c =
      if c = b then x else s.bank c := fun c => bank_setBank s b c x
  have href : ∀ c, State.referenced { setBank b x s with loader := { s.loader with reading := reading } } c = s.referenced c :=
    fun c => referenced_setBank b c x s
  have hi : State.image? { setBank b x s with loader := { s.loader with reading := reading } } = s.image? := rfl
  have hv : ∀ t, State.voice { setBank b x s with loader := { s.loader with reading := reading } } t = s.voice t := by
    intro t; cases b <;> rfl
  refine ⟨fun c => ?_, fun y hy => ?_, fun hin => ⟨fun t => ?_, fun c => ?_⟩, ?_⟩
  · rw [State.BankOk, hb, href]
    split
    · next hc => rw [hc]; exact ⟨hheld, hwaits⟩
    · exact hbank c
  · match y, hy with
    | .imageLoad, _ => rfl
    | .programRead c n, hy =>
      rw [State.readAgrees, hb, decide_eq_true_eq]
      obtain ⟨rfl, hx⟩ | ⟨hne, hc⟩ := hread c n hy
      · rw [if_pos rfl, hx]
      · rw [if_neg hne, hc]
  · rw [hv]; exact (hnone (hi ▸ hin)).1 t
  · rw [hb]
    split
    · exact himage (hi ▸ hin)
    · exact (hnone (hi ▸ hin)).2 c
  · rw [hi]; cases b <;> exact hreset

/-- The program read in flight is that of a bank that is LOADING. -/
theorem reading_agrees {s : State} (h : s.BanksOk) {c : BankId} {n : Nat} (hr : s.loader.reading = some (.programRead c n)) :
    s.bank c = .loading n := by
  have := h.2.2.1 _ hr
  simpa [State.readAgrees] using this

theorem not_referenced_of_not_held {s : State} (h : s.BanksOk) {b : BankId} (hb : (s.bank b).held? = none) :
    s.referenced b = false := by
  by_contra hr
  have := (s.bankOk h b).1 (by simpa using hr)
  simp [hb] at this

theorem setBank_same_reading (b : BankId) (x : BankState) (s : State) :
    setBank b x s = { setBank b x s with loader := { s.loader with reading := s.loader.reading } } := by
  cases b <;> rfl

/-- A bank that is not LOADING changes alone, keeping its program. -/
theorem moves_setBank {s : State} {b : BankId} {x : BankState} (hloading : ∀ n, s.bank b ≠ .loading n)
    (hheld : x.held? = (s.bank b).held?) (hwaits : x.waits = true → s.referenced b = true) : Moves s (setBank b x s) := by
  rw [setBank_same_reading b x s]
  refine .single (.bank b x s.loader.reading (fun hok => ?_) (fun _ _ => hheld) fun h hh => .inl (hheld ▸ hh))
  refine banksOk_setBank hok (fun hr => hheld ▸ (s.bankOk hok b).1 hr) hwaits (fun c n hr => .inr ⟨?_, reading_agrees hok hr⟩)
    fun hi => hheld ▸ s.held_eq_none_of_no_image hok hi b
  rintro rfl
  exact hloading n (reading_agrees hok hr)

theorem moves_cancelBank (b : BankId) (s : State) : Moves s (cancelBank b s) := by
  unfold cancelBank
  split
  · next n h hb =>
    exact moves_setBank (by simp [hb]) (by simp [hb, BankState.held?]) nofun
  · next n hb =>
    exact moves_setBank (by simp [hb]) (by simp [hb, BankState.held?]) nofun
  · next n hb =>
    have hnone : (s.bank b).held? = none := by rw [hb]; rfl
    have hempty : ∀ reading : Option ReadInFlight, (∀ c m, reading = some (.programRead c m) → s.loader.reading = reading ∧ c ≠ b) →
        Moves s { setBank b .empty s with loader := { s.loader with reading := reading } } := by
      intro reading hreading
      refine .single (.bank b .empty reading (fun hok => ?_) (fun hok hr => ?_) nofun)
      · refine banksOk_setBank hok (fun hr => ?_) nofun (fun c m hr => ?_) fun _ => rfl
        · rw [not_referenced_of_not_held hok hnone] at hr; cases hr
        · obtain ⟨hsame, hne⟩ := hreading c m hr
          exact .inr ⟨hne, reading_agrees hok (hsame.trans hr)⟩
      · rw [not_referenced_of_not_held hok hnone] at hr; cases hr
    unfold abandonRead
    split
    · have := hempty none nofun
      cases b <;> exact this
    · next hr =>
      rw [setBank_same_reading b .empty s]
      refine hempty _ fun c m hc => absurd ?_ (hr c m)
      cases b <;> exact hc
  · exact .refl

theorem moves_selectBank (b : BankId) (s : State) : Moves s (selectBank b s) := .single (.selector b)

theorem keeps?_eq_some {x : BankState} {n : Nat} {h : Held} (hk : x.keeps? n = some h) : ∃ m, x = .pending m (some h) := by
  unfold BankState.keeps? at hk
  split at hk
  · split at hk
    · exact ⟨_, by rw [Option.some.inj hk]⟩
    · cases hk
  · cases hk

theorem moves_requestProgram (n : Nat) (s : State) : Moves s (requestProgram n s) := by
  dsimp only [requestProgram]
  generalize s.banks.selector.other = b
  split
  · exact (moves_cancelBank b s).trans (moves_raise _ _)
  · split
    · exact (moves_selectBank b s).trans (moves_raise _ _)
    · split
      · next h hk =>
        obtain ⟨m, hb⟩ := keeps?_eq_some hk
        have hset : Moves s (setBank b (.ready h) s) := moves_setBank (by simp [hb]) (by simp [hb, BankState.held?]) nofun
        exact (hset.trans (moves_selectBank b _)).trans (moves_raise _ _)
      · split
        · next href =>
          rw [setBank_same_reading]
          refine .single (.bank b _ _ (fun hok => ?_) (fun _ _ => rfl) fun h hh => .inl hh)
          refine banksOk_setBank hok (s.bankOk hok b).1 (fun _ => href) (fun c m hr => .inr ⟨?_, reading_agrees hok hr⟩)
            fun hi => s.held_eq_none_of_no_image hok hi b
          rintro rfl
          have hload := reading_agrees hok hr
          have hheld := (s.bankOk hok c).1 href
          simp [hload, BankState.held?] at hheld
        · next href =>
          have hmove : Moves s { setBank b (.loading n) s with loader := { s.loader with reading := some (.programRead b n) } } := by
            refine .single (.bank b (.loading n) _ (fun hok => ?_) (fun _ hr => absurd hr href) nofun)
            refine banksOk_setBank hok (fun hr => absurd hr href) nofun (fun c m hr => ?_) fun _ => rfl
            simp only [Option.some.injEq, ReadInFlight.programRead.injEq] at hr
            obtain ⟨rfl, rfl⟩ := hr
            exact .inl ⟨rfl, rfl⟩
          cases b <;> exact hmove

theorem moves_programReadComplete (flash : List Byte) (s : State) : Moves s (programReadComplete flash s) := by
  dsimp only [programReadComplete]
  split
  · next b n img hread himage =>
    have hset : ∀ x : BankState, x.waits = false → (∀ h ∈ x.held?, h.params.PitchOk) →
        Moves s (setBank b x { s with loader := { s.loader with reading := none } }) := by
      intro x hwaits hprogram
      have hmove : Moves s { setBank b x s with loader := { s.loader with reading := none } } := by
        have hfree : s.BanksOk → s.referenced b ≠ true := fun hok hr => by
          have hload := reading_agrees hok hread
          rw [not_referenced_of_not_held hok (by rw [hload]; rfl)] at hr
          cases hr
        refine .single (.bank b x none (fun hok => ?_) (fun hok hr => absurd hr (hfree hok)) fun h hh => .inr (hprogram h hh))
        exact banksOk_setBank hok (fun hr => absurd hr (hfree hok)) (fun hw => by simp [hwaits] at hw) nofun
          fun hi => by rw [himage] at hi; cases hi
      cases b <;> exact hmove
    split
    · next p hp =>
      have hp : ∀ h ∈ (BankState.ready { number := n, params := p }).held?, h.params.PitchOk := by
        rintro _ ⟨⟩
        exact Image.pitchOk_of_readProgram hp
      exact ((hset (.ready { number := n, params := p }) rfl hp).trans (moves_selectBank b _)).trans (moves_raise _ _)
    · exact (hset .empty rfl nofun).trans (moves_raise _ _)
  · exact .refl

end Sys2Proof.Machine

/-!
The panel, what comes due, and the whole of a step as runs of moves.
-/

namespace Sys2Proof.Machine

/-! ### The panel -/

theorem moves_dropHead (s : State) : Moves s (dropHead s) :=
  .single (.panel _ fun ⟨hcount, ⟨hin, hout⟩, hrest⟩ => ⟨hcount, ⟨by
    have : s.panel.inFifo.tail.length ≤ Config.fifoLimit := by rw [List.length_tail]; omega
    exact this, hout⟩, hrest⟩)

/-- Records join the out FIFO where there is room for them. -/
theorem moves_placed {s : State} {rs : List PanelRecord} (h : rs.length + s.panel.outFifo.length ≤ Config.fifoLimit) (p : Panel)
    (hp : p = { s.panel with
      outFifo := s.panel.outFifo ++ rs, events := p.events, report := p.report, reportNumber := p.reportNumber }) :
    Moves s { s with panel := p } := by
  rw [hp]
  exact .single (.panel _ fun ⟨hcount, ⟨hin, _⟩, hrest⟩ => ⟨hcount, ⟨hin, by
    have : (s.panel.outFifo ++ rs).length ≤ Config.fifoLimit := by rw [List.length_append]; omega
    exact this⟩, hrest⟩)

theorem moves_place {r : PanelRecord} {s : State} (h : 1 + s.panel.outFifo.length ≤ Config.fifoLimit) : Moves s (place r s) :=
  moves_placed (rs := [r]) h _ rfl

/-- An effect that is a run of moves where the out FIFO has room for a message's records. -/
abbrev EffectMoves (f : Message → Option (State → State)) : Prop :=
  ∀ m g, f m = some g → ∀ s : State, m.room + s.panel.outFifo.length ≤ Config.fifoLimit → Moves s (g s)

theorem room_of_headMessage {s : State} {m : Message} (h : s.headMessage = some m) :
    m.room + s.panel.outFifo.length ≤ Config.fifoLimit := by
  unfold State.headMessage at h
  split at h
  · cases h
  · split at h
    · obtain rfl := Option.some.inj h; assumption
    · cases h

theorem moves_processHead {f : Message → Option (State → State)} (hf : EffectMoves f) (s : State) : Moves s (processHead f s) := by
  unfold processHead
  split
  · next m hm =>
    split
    · next g hg => exact (moves_dropHead s).trans (hf m g hg _ (room_of_headMessage (s := s) hm))
    · exact .refl
  · exact .refl

theorem effectMoves_onProgram : EffectMoves onProgram := by
  intro m g hg s hroom
  cases m <;> simp only [onProgram, Option.some.injEq, reduceCtorEq] at hg
  subst hg
  unfold takeProgram
  split
  · exact moves_place hroom
  · exact moves_requestProgram _ s

theorem effectMoves_onTranspose : EffectMoves onTranspose := by
  intro m g hg s _
  cases m <;> simp only [onTranspose, Option.some.injEq, reduceCtorEq] at hg
  subst hg
  refine .single (.panel _ fun ⟨hcount, hfifo, hsample, hsent, hlive, htune, _, hrest⟩ =>
    ⟨hcount, hfifo, hsample, hsent, hlive, htune, ?_, hrest⟩)
  rintro _ ⟨⟩
  exact clampInt_mem (by decide) _

theorem effectMoves_onTuning : EffectMoves onTuning := by
  intro m g hg s _
  cases m <;> simp only [onTuning, Option.some.injEq, reduceCtorEq] at hg
  subst hg
  refine .single (.panel _ fun ⟨hcount, hfifo, hsample, hsent, hlive, htune, hwait, _, hrest⟩ =>
    ⟨hcount, hfifo, hsample, hsent, hlive, htune, hwait, ?_, hrest⟩)
  rintro _ ⟨⟩
  exact clampInt_mem (by decide) _

theorem effectMoves_onKey : EffectMoves onKey := by
  intro m g hg s hroom
  cases m with
  | key k scale =>
    obtain rfl := Option.some.inj hg
    unfold fixKey
    split
    · exact moves_place hroom
    · next hscale =>
      refine .single (.panel _ fun ⟨hcount, hfifo, hsample, hsent, hlive, htune, hwaitT, hwaitU, hk, _⟩ =>
        ⟨hcount, hfifo, hsample, hsent, hlive, htune, hwaitT, hwaitU, hk, ?_⟩)
      rintro _ ⟨⟩
      exact ⟨Nat.mod_lt _ (by decide), hscale⟩
  | _ => cases hg

theorem effectMoves_onRanks : EffectMoves onRanks := by
  intro m g hg s _
  cases m <;> simp only [onRanks, Option.some.injEq, reduceCtorEq] at hg
  subst hg
  exact .single (.panel _ id)

theorem effectMoves_onAllOff : EffectMoves onAllOff := by
  intro m g hg s _
  cases m <;> simp only [onAllOff, Option.some.injEq, reduceCtorEq] at hg
  subst hg
  exact .single (.release s.breath id)

theorem effectMoves_onStatus : EffectMoves onStatus := by
  intro m g hg s hroom
  cases m <;> simp only [onStatus, Option.some.injEq, reduceCtorEq] at hg
  subst hg
  exact moves_placed (rs := s.statusReport) hroom _ rfl

theorem effectMoves_onSection : EffectMoves onSection := by
  intro m g hg s _
  cases m <;> simp only [onSection, Option.some.injEq, reduceCtorEq] at hg
  subst hg
  exact .single (.panel _ id)

theorem effectMoves_onAck : EffectMoves onAck := by
  intro m g hg s _
  cases m <;> simp only [onAck, Option.some.injEq, reduceCtorEq] at hg
  subst hg
  exact .single (.panel _ id)

theorem effectMoves_onReload : EffectMoves onReload := by
  intro m g hg s _
  cases m <;> simp only [onReload, Option.some.injEq, reduceCtorEq] at hg
  subst hg
  exact .single .reload

theorem effectMoves_onBad : EffectMoves onBad := by
  intro m g hg s hroom
  cases m <;> simp only [onBad, Option.some.injEq, reduceCtorEq] at hg
  subst hg
  exact moves_place hroom

theorem effectMoves_onMessage : EffectMoves onMessage := by
  intro m g hg s hroom
  cases m with
  | idle => obtain rfl := Option.some.inj hg; exact .refl
  | program n => exact effectMoves_onProgram (.program n) g hg s hroom
  | transpose v => exact effectMoves_onTranspose (.transpose v) g hg s hroom
  | tuning v => exact effectMoves_onTuning (.tuning v) g hg s hroom
  | key k scale => exact effectMoves_onKey (.key k scale) g hg s hroom
  | ranks set => exact effectMoves_onRanks (.ranks set) g hg s hroom
  | allOff => exact effectMoves_onAllOff .allOff g hg s hroom
  | status => exact effectMoves_onStatus .status g hg s hroom
  | sectionReport => exact effectMoves_onSection .sectionReport g hg s hroom
  | ack listed => exact effectMoves_onAck (.ack listed) g hg s hroom
  | reload => exact effectMoves_onReload .reload g hg s hroom
  | unknown kind => exact effectMoves_onBad (.unknown kind) g hg s hroom

theorem moves_placeSection (s : State) : Moves s (placeSection s) := by
  unfold placeSection
  split
  · exact .refl
  · split
    · next h =>
      have hroom : ∀ r : PanelRecord, [r].length + s.panel.outFifo.length ≤ Config.fifoLimit := fun r => by
        have := h.1; rw [List.length_singleton]; omega
      split
      · exact moves_placed (hroom _) _ rfl
      · exact moves_placed (hroom _) _ rfl
    · exact .refl

theorem moves_transfer (m : Octets) (s : State) : Moves s (transfer m s) := by
  have hout : Moves s { s with panel := { s.panel with lastSent := some s.outgoing, outFifo := s.panel.outFifo.tail } } :=
    .single (.panel _ fun ⟨hcount, ⟨hin, hout⟩, hrest⟩ => ⟨hcount, ⟨hin, by
      have : s.panel.outFifo.tail.length ≤ Config.fifoLimit := by rw [List.length_tail]; omega
      exact this⟩, hrest⟩)
  refine hout.trans ?_
  unfold transfer offerMessage
  split
  · exact .refl
  · split
    · next hroom =>
      refine .single (.panel _ fun ⟨hcount, ⟨_, hout⟩, hrest⟩ => ⟨hcount, ⟨?_, hout⟩, hrest⟩)
      rw [List.length_append, List.length_singleton]
      exact hroom
    · exact moves_raise _ _

/-! ### What comes due -/

theorem moves_processMessages (fuel : Nat) (s : State) : Moves s (processMessages fuel s) := by
  induction fuel generalizing s with
  | zero => exact .refl
  | succ fuel ih =>
    unfold processMessages
    split
    · exact (moves_processHead effectMoves_onMessage s).trans (ih _)
    · exact .refl

theorem moves_placeSections (fuel : Nat) (s : State) : Moves s (placeSections fuel s) := by
  induction fuel generalizing s with
  | zero => exact .refl
  | succ fuel ih => exact (moves_placeSection s).trans (ih _)

theorem moves_settleFrame (s : State) : Moves s (settleFrame s) :=
  (moves_captureComplete s).trans ((moves_fireAll _).trans (moves_onsetEnd _))

theorem moves_takeDue (s : State) : Moves s (takeDue s) :=
  (moves_takeTranspose s).trans ((moves_takeTuning _).trans ((moves_takeKey _).trans (moves_takeRanks _)))

theorem moves_settleRanks (s : State) : Moves s (settleRanks s) :=
  (moves_foldl (fun s r => moves_claimConfirm r s) _ s).trans
    ((moves_foldl (fun s r => moves_localResolution r s) _ _).trans (moves_foldl (fun s r => moves_staleClaim r s) _ _))

theorem moves_settleBoundary (s : State) : Moves s (settleBoundary s) :=
  (moves_rootSettled s).trans <| (moves_sensorLost _).trans <| (moves_foldl (fun s st => moves_stationExpiry st s) _ _).trans <|
    (moves_takeDue _).trans <| (moves_settleRanks _).trans <| (moves_joiningComplete _).trans <| (moves_decayExpiry _).trans <|
    (moves_listenOnlyEnd _).trans (moves_rosterExpiry _)

theorem moves_settlePanel (s : State) : Moves s (settlePanel s) :=
  (moves_processMessages _ s).trans (moves_placeSections _ _)

theorem moves_settle (s : State) : Moves s (settle s) := by
  unfold settle
  split
  · exact .refl
  · exact (moves_settleFrame s).trans ((moves_settleBoundary _).trans (moves_settlePanel _))

end Sys2Proof.Machine

namespace Sys2Proof

open Machine

/-- What a command does to the state it finds; the two commands of power-on reset stand apart. -/
def Instr.effect : Instr → State → State
  | .powerOnReset | .resetRelease _ | .panelTransferAborted => id
  | .imageLoadFault flash => Machine.imageLoadFault flash
  | .imageLoadComplete flash => Machine.imageLoadComplete flash
  | .programReadComplete flash => Machine.programReadComplete flash
  | .defaultProgramReadStart flash => Machine.defaultReadStart flash
  | .sensorFrame burst => Machine.takeBurst burst
  | .baselineCaptureComplete => Machine.captureComplete
  | .onsetEnd => Machine.onsetEnd
  | .sensorLost => Machine.sensorLost
  | .detectorFire => Machine.fireNext
  | .audioBlockBoundary => Machine.boundary
  | .rootSettled => Machine.rootSettled
  | .transposeTaken => Machine.takeTranspose
  | .tuningTaken => Machine.takeTuning
  | .keyTaken => Machine.takeKey
  | .ranksTaken => Machine.takeRanks
  | .staleClaim r => Machine.staleClaim r
  | .claimConfirm r => Machine.claimConfirm r
  | .localResolution r => Machine.localResolution r
  | .stationExpiry st => Machine.stationExpiry st
  | .joiningComplete => Machine.joiningComplete
  | .decayTimerExpiry => Machine.decayExpiry
  | .listenOnlyEnd => Machine.listenOnlyEnd
  | .rosterTimerExpiry => Machine.rosterExpiry
  | .sample => Machine.renderSample
  | .transmitStart => Machine.transmitStart
  | .arbitrationLost winner => Machine.arbitrationLost winner
  | .bitError => Machine.bitError
  | .ownFrameComplete => Machine.ownFrameComplete
  | .lineFrameBroken bits => Machine.lineFrameBroken bits
  | .frameDiscarded frame => Machine.frameDiscarded frame
  | .duplicateFrame frame => Machine.duplicateFrame frame
  | .peerNoteStart frame => Machine.peerNoteStart frame
  | .peerNoteEnd frame => Machine.peerNoteEnd frame
  | .peerRoster frame => Machine.peerRoster frame
  | .peerClaim frame => Machine.peerClaim frame
  | .peerHeld frame => Machine.peerHeld frame
  | .panelTransfer message => Machine.transfer message
  | .program => Machine.processHead Machine.onProgram
  | .transpose => Machine.processHead Machine.onTranspose
  | .tuning => Machine.processHead Machine.onTuning
  | .key => Machine.processHead Machine.onKey
  | .ranks => Machine.processHead Machine.onRanks
  | .allOff => Machine.processHead Machine.onAllOff
  | .status => Machine.processHead Machine.onStatus
  | .sectionRequest => Machine.processHead Machine.onSection
  | .ack => Machine.processHead Machine.onAck
  | .reload => Machine.processHead Machine.onReload
  | .badMessage => Machine.processHead Machine.onBad
  | .sectionEntryPlaced => Machine.placeSection

/-- The state a command finds: with everything due completed for a command from outside, with a due root adoption completed for a step
that touches the pitch, and as it stands for any other (assumptions 1 and 9). -/
def Instr.found (c : Instr) (s : State) : State :=
  if c.fromOutside then settle s else if c.adoptsRoot then Machine.rootSettled s else s

/-- The two commands of power-on reset. -/
def Instr.ofReset : Instr → Bool
  | .powerOnReset | .resetRelease _ => true
  | _ => false

namespace Machine

/-- Every command but the two of power-on reset is its effect on the state it finds, while the part runs. -/
theorem exec_eq {c : Instr} (h : c.ofReset = false) (s : State) : exec c s = unlessHeld s fun s => c.effect (c.found s) := by
  cases c <;> first | rfl | cases h

theorem moves_effect (c : Instr) (s : State) : Moves s (c.effect s) := by
  cases c with
  | powerOnReset | resetRelease | panelTransferAborted => exact .refl
  | imageLoadFault flash => exact moves_imageLoadFault flash s
  | imageLoadComplete flash => exact moves_imageLoadComplete flash s
  | programReadComplete flash => exact moves_programReadComplete flash s
  | defaultProgramReadStart flash => exact moves_defaultReadStart flash s
  | sensorFrame burst => exact moves_takeBurst burst s
  | baselineCaptureComplete => exact moves_captureComplete s
  | onsetEnd => exact moves_onsetEnd s
  | sensorLost => exact moves_sensorLost s
  | detectorFire => exact moves_fireNext s
  | audioBlockBoundary => exact moves_boundary s
  | rootSettled => exact moves_rootSettled s
  | transposeTaken => exact moves_takeTranspose s
  | tuningTaken => exact moves_takeTuning s
  | keyTaken => exact moves_takeKey s
  | ranksTaken => exact moves_takeRanks s
  | staleClaim r => exact moves_staleClaim r s
  | claimConfirm r => exact moves_claimConfirm r s
  | localResolution r => exact moves_localResolution r s
  | stationExpiry st => exact moves_stationExpiry st s
  | joiningComplete => exact moves_joiningComplete s
  | decayTimerExpiry => exact moves_decayExpiry s
  | listenOnlyEnd => exact moves_listenOnlyEnd s
  | rosterTimerExpiry => exact moves_rosterExpiry s
  | sample => exact moves_renderSample s
  | transmitStart => exact moves_transmitStart s
  | arbitrationLost winner => exact moves_arbitrationLost winner s
  | bitError => exact moves_bitError s
  | ownFrameComplete => exact moves_ownFrameComplete s
  | lineFrameBroken bits => exact moves_lineFrameBroken bits s
  | frameDiscarded frame => exact moves_frameDiscarded frame s
  | duplicateFrame frame => exact moves_duplicateFrame frame s
  | peerNoteStart frame => exact moves_peerNoteStart frame s
  | peerNoteEnd frame => exact moves_peerNoteEnd frame s
  | peerRoster frame => exact moves_peerRoster frame s
  | peerClaim frame => exact moves_peerClaim frame s
  | peerHeld frame => exact moves_peerHeld frame s
  | panelTransfer message => exact moves_transfer message s
  | program => exact moves_processHead effectMoves_onProgram s
  | transpose => exact moves_processHead effectMoves_onTranspose s
  | tuning => exact moves_processHead effectMoves_onTuning s
  | key => exact moves_processHead effectMoves_onKey s
  | ranks => exact moves_processHead effectMoves_onRanks s
  | allOff => exact moves_processHead effectMoves_onAllOff s
  | status => exact moves_processHead effectMoves_onStatus s
  | sectionRequest => exact moves_processHead effectMoves_onSection s
  | ack => exact moves_processHead effectMoves_onAck s
  | reload => exact moves_processHead effectMoves_onReload s
  | badMessage => exact moves_processHead effectMoves_onBad s
  | sectionEntryPlaced => exact moves_placeSection s

theorem moves_found (c : Instr) (s : State) : Moves s (c.found s) := by
  unfold Instr.found
  split
  · exact moves_settle s
  · split
    · exact moves_rootSettled s
    · exact .refl

/-- What a step leaves: power-on reset, its release, or in any other case a run of moves, which is none while reset is asserted. -/
theorem step_cases {s t : State} (h : step s = .next t) :
    (∃ p, t = { State.reset with pending := p }) ∨
    (∃ straps p, s.power.resetHeld = true ∧
      t = beginLoad { s with pending := p, power := { resetHeld := false, station := straps } }) ∨
    ∃ p, t = { s with pending := p } ∨ (s.Running ∧ Moves { s with pending := p } t) := by
  unfold step at h
  split at h
  · obtain rfl := Host.Outcome.next.inj h
    refine .inr (.inr ⟨s.pending, ?_⟩)
    cases hr : s.power.resetHeld with
    | true => exact .inl (by simp [settle, hr])
    | false => exact .inr ⟨hr, moves_settle s⟩
  · next c rest _ =>
    by_cases hc : c.ofReset = false
    · rw [exec_eq hc] at h
      obtain rfl := Host.Outcome.next.inj h
      refine .inr (.inr ⟨rest, ?_⟩)
      cases hr : s.power.resetHeld with
      | true => exact .inl rfl
      | false =>
        refine .inr ⟨hr, ?_⟩
        exact (moves_found c _).trans (moves_effect c _)
    · cases c with
      | powerOnReset => exact .inl ⟨rest, (Host.Outcome.next.inj h).symm⟩
      | resetRelease straps =>
        obtain rfl := Host.Outcome.next.inj h
        unfold releaseReset
        split
        · next hr => exact .inr (.inl ⟨_, rest, hr, rfl⟩)
        · exact .inr (.inr ⟨rest, .inl rfl⟩)
      | _ => exact absurd rfl hc

/-- A law that does not look at the commands waiting, holds at reset and after its release, and is kept by every move of a running
part, is kept by every step. -/
theorem step_keeps {law : State → Prop} (hpending : ∀ (s : State) (p : List Instr), law s → law { s with pending := p })
    (hreset : law State.reset)
    (hrelease : ∀ (s : State) (st : Fin 8), s.power.resetHeld = true → law s →
      law (beginLoad { s with power := { resetHeld := false, station := st } }))
    (hmove : ∀ s t : State, s.Running → Move s t → law s → law t) {s t : State} (hs : law s) (h : step s = .next t) : law t := by
  obtain ⟨p, rfl⟩ | ⟨straps, p, hr, rfl⟩ | ⟨p, rfl | ⟨hr, hmoves⟩⟩ := step_cases h
  · exact hpending _ p hreset
  · exact hrelease { s with pending := p } straps hr (hpending s p hs)
  · exact hpending s p hs
  · exact hmoves.keeps hmove hr (hpending s p hs)

end Machine

end Sys2Proof

/-!
The shared operations on voices, ranks and records as runs of touches: one slot, one rank record, one queued record at a time. A law that
does not tie these to each other needs no more of a plan, a yield or a release than that.
-/

namespace Sys2Proof.Machine

/-- One touch of a slot, a rank record, a queued record or a setting of the ranks. -/
inductive Touch (s : State) : State → Prop
  | rank (r : Fin 3) (k : Rank) : Touch s (setRank r k s)
  | counter (n : Byte) : Touch s { s with harmony := { s.harmony with counter := n } }
  | settings (master : Bool) (live : BitVec 3) :
      Touch s { s with harmony := { s.harmony with master := master, liveRanks := live } }
  | enqueued (r : Record) : Touch s (enqueue r s)
  | remove (p : Record → Bool) : Touch s (removeRecords p s)
  /-- A voice changes its state. -/
  | restate (t : Fin 8) (v : Voice) (x : VoiceState) (h : s.voice t = some v) : Touch s (setVoice t (some { v with state := x }) s)
  /-- A voice moves to another note. -/
  | renote (t : Fin 8) (v : Voice) (x : VoiceState) (n : Nat) (h : s.voice t = some v) (hn : s.PitchOk → n ≤ 127) :
      Touch s (setVoice t (some { v with state := x, note := n, baseTarget := 1000 * n }) s)
  /-- A slot is taken for a new voice that reads a program. -/
  | take (role : Role) (n : Nat) (b : BankId) (o : Option Nat) (u : Fin 8) (hn : s.PitchOk → n ≤ 127)
      (hb : s.BanksOk → (s.bank b).held?.isSome = true) :
      Touch s (loadPending (setSlot u ((s.slot u).start (s.newVoice role n b o)) s))

/-- A run of touches. -/
abbrev Touches : State → State → Prop := Relation.ReflTransGen Touch

theorem Touches.keeps {law : State → Prop} (hlaw : ∀ s t : State, Touch s t → law s → law t) {s t : State} (h : Touches s t)
    (hs : law s) : law t := by
  induction h with
  | refl => exact hs
  | tail _ ht ih => exact hlaw _ _ ht ih

theorem touches_foldl {α : Type} {f : State → α → State} (hf : ∀ s a, Touches s (f s a)) (l : List α) (s : State) :
    Touches s (l.foldl f s) := by
  induction l generalizing s with
  | nil => exact .refl
  | cons a l ih => exact (hf s a).trans (ih _)

theorem touches_setRank (r : Fin 3) (k : Rank) (s : State) : Touches s (setRank r k s) := .single (.rank r k)

theorem touches_removeRecords (p : Record → Bool) (s : State) : Touches s (removeRecords p s) := .single (.remove p)

theorem touches_enqueue (r : Record) (s : State) : Touches s (enqueue r s) := .single (.enqueued r)

/-! ### Slots -/

theorem touches_queueNoteStart (t : Fin 8) (s : State) : Touches s (queueNoteStart t s) := by
  unfold queueNoteStart
  split
  · exact touches_enqueue _ s
  · exact .refl

theorem touches_placeNoteEnd (t : Fin 8) (s : State) : Touches s (placeNoteEnd t s) := by
  have h := touches_removeRecords (Record.isNoteStart t) s
  simp only [placeNoteEnd]
  split
  · exact h.trans (touches_enqueue _ _)
  · exact h

theorem touches_releaseSlot (mode : VoiceState) (t : Fin 8) (s : State) : Touches s (releaseSlot mode t s) := by
  unfold releaseSlot
  split
  · next v hv =>
    split
    · exact .head (.restate t v mode hv) (touches_placeNoteEnd _ _)
    · exact .refl
  · exact .refl

theorem touches_withdraw (r : Fin 3) (s : State) : Touches s (withdraw r s) := by
  unfold withdraw
  split
  · exact (touches_releaseSlot _ _ s).trans (touches_setRank _ _ _)
  · exact touches_setRank _ _ _

theorem touches_exhaust (r : Fin 3) (s : State) : Touches s (exhaust r s) :=
  (touches_withdraw r s).trans (touches_setRank _ _ _)

theorem touches_retarget (t : Fin 8) {n : Nat} (hn : n ≤ 127) (s : State) : Touches s (retarget t n s) := by
  unfold retarget
  split
  · next v hv => exact .single (.renote t v .provisional n hv fun _ => hn)
  · exact .refl

theorem touches_allocate (role : Role) (n : Nat) (b : BankId) (o : Option Nat) (s : State) (hn : s.PitchOk → n ≤ 127)
    (hb : s.BanksOk → (s.bank b).held?.isSome = true) : Touches s (allocate role n b o s).2 := by
  unfold allocate
  split
  · exact .single (.take role n b o _ hn hb)
  · exact .refl

theorem touches_requestSlot (r : Fin 3) {n : Nat} (hn : n ≤ 127) (b : BankId) (keep : Bool) (s : State)
    (hb : s.BanksOk → (s.bank b).held?.isSome = true) : Touches s (requestSlot r n b keep s).2 := by
  unfold requestSlot
  split
  · exact touches_retarget _ hn s
  · exact touches_allocate _ _ _ _ s (fun _ => hn) hb

/-! ### Ranks -/

theorem touches_makeClaim (r : Fin 3) (pos : Nat) {n : Nat} (hn : n ≤ 127) (b : BankId) (keep : Bool) (s : State)
    (hb : s.BanksOk → (s.bank b).held?.isSome = true) : Touches s (makeClaim r pos n b keep s) := by
  have hcounter : Touches s { s with harmony := { s.harmony with counter := s.claimNumber r + 1 } } := .single (.counter _)
  have h := hcounter.trans (touches_requestSlot r hn b keep _ hb)
  simp only [makeClaim]
  split
  · exact (h.trans (touches_setRank _ _ _)).trans (touches_enqueue _ _)
  · exact h.trans (touches_setRank _ _ _)

theorem referenced_of_voice {s : State} {t : Fin 8} {v : Voice} (h : s.voice t = some v) : s.referenced v.bank = true := by
  have hmem : t ∈ allEight := by fin_cases t <;> decide
  exact List.any_eq_true.2 ⟨t, hmem, by simp [h]⟩

theorem voice_of_referenced {s : State} {b : BankId} (h : s.referenced b = true) : ∃ t v, s.voice t = some v ∧ v.bank = b := by
  obtain ⟨t, -, ht⟩ := List.any_eq_true.1 h
  split at ht
  · next v hv => exact ⟨t, v, hv, by simpa using ht⟩
  · cases ht

theorem voice_of_leadVoice {s : State} {v : Voice} (h : s.leadVoice = some v) : ∃ t, s.leadTag = some t ∧ s.voice t = some v := by
  unfold State.leadVoice at h
  split at h
  · next t ht => exact ⟨t, ht, h⟩
  · cases h

/-- A bank that a voice references holds its program (R71). -/
theorem held_of_voice {s : State} (hok : s.BanksOk) {t : Fin 8} {v : Voice} (h : s.voice t = some v) :
    (s.bank v.bank).held?.isSome = true :=
  (s.bankOk hok v.bank).1 (referenced_of_voice h)

theorem touches_plan (r : Fin 3) (start : Nat) (keep : Bool) (s : State) : Touches s (plan r start keep s) := by
  unfold plan
  split
  · exact .refl
  · next lead hlead =>
    obtain ⟨t, -, ht⟩ := voice_of_leadVoice hlead
    dsimp only
    split
    · exact touches_exhaust r s
    · next pos note hwalk =>
      obtain ⟨_, i, _, _, _, rfl, _⟩ := walk_some hwalk
      exact touches_makeClaim r pos (fold_le _) _ _ s fun hok => held_of_voice hok ht

theorem touches_giveUp (r : Fin 3) (s : State) : Touches s (giveUp r s) :=
  ((touches_withdraw r s).trans (touches_removeRecords _ _)).trans (touches_setRank _ _ _)

theorem touches_yieldRank (r : Fin 3) (s : State) : Touches s (yieldRank r s) := by
  unfold yieldRank
  split
  · exact .refl
  · exact ((touches_giveUp r s).trans (touches_setRank _ _ _)).trans (touches_plan _ _ _ _)

theorem touches_enableChanged (r : Fin 3) (before after : Bool) (s : State) : Touches s (enableChanged r before after s) := by
  unfold enableChanged
  split
  · exact touches_giveUp r s
  · split
    · exact touches_plan _ _ _ s
    · exact .refl

theorem touches_changeEnables (f : State → State) (s : State) : Touches (f s) (changeEnables f s) :=
  touches_foldl (f := fun acc r => enableChanged r (s.enabled r) ((f s).enabled r) acc)
    (fun acc r => touches_enableChanged r _ _ acc) allRanks (f s)

theorem touches_planAll (keep : Bool) (s : State) : Touches s (planAll keep s) := by
  refine touches_foldl (fun s r => ?_) _ s
  split
  · exact touches_plan _ _ _ s
  · exact .refl

theorem touches_abandonClaim (r : Fin 3) (s : State) : Touches s (abandonClaim r s) :=
  (touches_removeRecords _ s).trans (touches_setRank _ _ _)

theorem touches_idleRank (r : Fin 3) (s : State) : Touches s (idleRank r s) :=
  (touches_removeRecords _ s).trans (touches_setRank _ _ _)

theorem touches_releaseAll (s : State) : Touches s (releaseAll s) :=
  (touches_foldl (fun s t => touches_releaseSlot _ t s) _ s).trans (touches_foldl (fun s r => touches_idleRank r s) _ _)

theorem touches_confirm (r : Fin 3) (s : State) : Touches s (confirm r s) := by
  have h := touches_setRank r { s.rank r with stage := .sounding, localDue := false } s
  simp only [confirm]
  split
  · split
    · next hv => exact (h.tail (.restate _ _ .sounding hv)).trans (touches_queueNoteStart _ _)
    · exact h
  · exact h

theorem touches_checkEntry (e : MapEntry) (s : State) : Touches s (checkEntry e s) := by
  refine touches_foldl (fun s r => ?_) _ s
  split
  · exact touches_yieldRank r s
  · exact .refl

theorem touches_checkEntries (es : List MapEntry) (s : State) : Touches s (es.foldl (fun x e => checkEntry e x) s) :=
  touches_foldl (fun s e => touches_checkEntry e s) es s

/-! ### The lead -/

theorem touches_deliverLeadChange {s : State} (hn : s.resolver.leadNote ≤ 127) : Touches s (deliverLeadChange s) := by
  unfold deliverLeadChange
  split
  · split
    · next t _ =>
      have hlegato : Touches s (legato t s) := by
        unfold legato
        split
        · next v hv => exact .head (.renote t v v.state _ hv fun _ => hn) (touches_queueNoteStart _ _)
        · exact .refl
      exact hlegato.trans ((touches_foldl (fun s r => touches_abandonClaim r s) _ _).trans (touches_planAll _ _))
    · exact .refl
  · exact .refl

theorem touches_leadStart (s : State) : Touches s (leadStart s) := by
  unfold leadStart
  split
  · exact .refl
  · next p hp =>
    have hb : (s.bank s.banks.selector).held?.isSome = true := by
      unfold State.currentProgram at hp
      split at hp
      · next h => rw [h]; rfl
      · cases hp
    have h := touches_allocate .lead s.resolver.leadNote s.banks.selector (some s.breath.onsetPeak) s (fun hok => hok.2.2.2.2)
      fun _ => hb
    split
    · next t u hu =>
      rw [hu] at h
      exact (h.trans (touches_queueNoteStart _ _)).trans (touches_planAll _ _)
    · next u hu => rw [hu] at h; exact h

/-! ### Moves as deeds -/

/-- A move with the shared operations taken apart: one block's update, one step of a boundary or of a load, or one touch. -/
inductive Deed (s : State) : State → Prop
  | sensor (x : Sensor) (h : s.PortsOk → State.PortsOk { s with sensor := x }) : Deed s { s with sensor := x }
  | resolver (x : Resolver) (hlead : x.leadNote = s.resolver.leadNote ∨ x.leadNote ≤ 127)
      (h : s.PortsOk → State.PortsOk { s with resolver := x }) : Deed s { s with resolver := x }
  | detectors (x : Four Detector) : Deed s { s with detectors := x }
  | selector (b : BankId) : Deed s { s with banks := { s.banks with selector := b } }
  | pitch (x : Pitch) (h : s.PortsOk → State.PortsOk { s with pitch := x }) : Deed s { s with pitch := x }
  | key (k : Nat) (scale : BitVec 12) (h : s.PortsOk → k < 12 ∧ scale ≠ 0) :
      Deed s { s with harmony := { s.harmony with key := k, scale := scale } }
  | audio (x : Audio) (h : s.PortsOk → State.PortsOk { s with audio := x }) : Deed s { s with audio := x }
  | panel (x : Panel) (h : s.PortsOk → State.PortsOk { s with panel := x }) : Deed s { s with panel := x }
  | line (x : Line) (hline : s.LineOk → State.LineOk { s with line := x })
      (h : s.PortsOk → State.PortsOk { s with line := x }) : Deed s { s with line := x }
  | breath (x : Breath) : Deed s { s with breath := x }
  | map (x : SectionMap) : Deed s { s with map := x }
  | gains : Deed s (stepGains s)
  | glide : Deed s (mapVoices s.glide s)
  | tune : Deed s (tuneAll s)
  | slots (x : Eight Slot) (h : ∀ t, (x.get t).voice = s.voice t) : Deed s { s with slots := x }
  | bank (b : BankId) (x : BankState) (reading : Option ReadInFlight)
      (hbanks : s.BanksOk → State.BanksOk { setBank b x s with loader := { s.loader with reading := reading } })
      (hprogram : ∀ h ∈ x.held?, h ∈ (s.bank b).held? ∨ h.params.PitchOk) :
      Deed s { setBank b x s with loader := { s.loader with reading := reading } }
  | defaultRead (n : Nat) (h : s.loadingImage = true) :
      Deed s { s with banks := { a := .loading n, b := .empty, selector := .bankA } }
  | loadEnd (image : ImageState) (held : Option Held) (lead : Nat) (line : Line) (h : s.loadingImage = true)
      (himage : (image = .fault ∧ held = none) ∨
        ∃ img, image = .loaded img ∧ (∀ x ∈ img.just, -500 ≤ x ∧ x ≤ 500) ∧ ∀ x ∈ held, x.params.PitchOk)
      (hlead : lead = s.resolver.leadNote ∨ lead ≤ 127)
      (hline : s.LineOk → ({ s with line := line, loader := { s.loader with startUpDone := true } } : State).LineOk)
      (hports : s.PortsOk → State.PortsOk { s with line := line }) :
      Deed s { s with
        loader := { image := image, reading := none, startUpDone := true }
        banks := banksAfterLoad held
        resolver := { s.resolver with leadNote := lead }
        line := line }
  | reload : Deed s (reloadPart s)
  | touch {t : State} (h : Touch s t) : Deed s t

theorem deeds_of_touches {s t : State} (h : Touches s t) : Relation.ReflTransGen Deed s t := 
  Relation.ReflTransGen.mono (fun _ _ => Deed.touch) _ _ h

theorem Move.deeds {s t : State} (h : Move s t) : Relation.ReflTransGen Deed s t := by
  cases h with
  | sensor x h => exact .single (.sensor x h)
  | resolver x hlead h => exact .single (.resolver x (.inl hlead) h)
  | detectors x => exact .single (.detectors x)
  | selector b => exact .single (.selector b)
  | pitch x h => exact .single (.pitch x h)
  | key k scale h => exact .single (.key k scale h)
  | audio x h => exact .single (.audio x h)
  | panel x h => exact .single (.panel x h)
  | line x hline h => exact .single (.line x hline h)
  | breath x => exact .single (.breath x)
  | release x => exact .head (.breath x) (deeds_of_touches (touches_releaseAll _))
  | lead n hn =>
    exact .head (.resolver { s.resolver with leadNote := n } (.inr hn) id) (deeds_of_touches (touches_deliverLeadChange hn))
  | start x => exact .head (.breath x) (deeds_of_touches (touches_leadStart _))
  | enables m l =>
    exact .head (.touch (.settings m l)) (deeds_of_touches (touches_changeEnables
      (fun x => { x with harmony := { x.harmony with master := m, liveRanks := l } }) s))
  | yields r => exact deeds_of_touches (touches_yieldRank r s)
  | confirm r => exact deeds_of_touches (touches_confirm r s)
  | rank r k => exact .single (.touch (.rank r k))
  | gains => exact .single .gains
  | glide => exact .single .glide
  | tune => exact .single .tune
  | slots x h => exact .single (.slots x h)
  | map m new => exact .head (.map m) (deeds_of_touches (touches_checkEntries new _))
  | bank b x reading hbanks _ hprogram => exact .single (.bank b x reading hbanks hprogram)
  | defaultRead n h => exact .single (.defaultRead n h)
  | loadEnd image held lead line h himage hlead hline hports =>
    exact .single (.loadEnd image held lead line h himage hlead hline hports)
  | reload => exact .single .reload

/-- A law that every deed keeps is kept by every move. -/
theorem Move.keeps_of_deeds {law : State → Prop} (hlaw : ∀ s t : State, Deed s t → law s → law t) {s t : State} (h : Move s t)
    (hs : law s) : law t := by
  have hdeeds := h.deeds
  clear h
  induction hdeeds with
  | refl => exact hs
  | tail _ hd ih => exact hlaw _ _ hd ih

end Sys2Proof.Machine

/-!
The laws of the map, the line and the ports, and the laws at reset.
-/

namespace Sys2Proof.Machine

/-! ### The Section Map -/

theorem sectionMapOk_iff (s : State) : s.SectionMapOk ↔
    (s.power.resetHeld = true → s.map = SectionMap.reset) ∧ s.map.Ok s.power.station := Iff.rfl

theorem Move.map_ok {s t : State} (h : Move s t) (hs : s.map.Ok s.power.station) : t.map.Ok s.power.station := by
  cases h with
  | release x => rw [(voiceWork_releaseAll { s with breath := x }).map]; exact hs
  | lead n => rw [(voiceWork_deliverLeadChange { s with resolver := { s.resolver with leadNote := n } }).map]; exact hs
  | start x => rw [(voiceWork_leadStart { s with breath := x }).map]; exact hs
  | enables m l =>
    rw [(voiceWork_changeEnables (f := fun x => { x with harmony := { x.harmony with master := m, liveRanks := l } }) s).map]
    exact hs
  | yields r => rw [(voiceWork_yieldRank r s).map]; exact hs
  | confirm r => rw [(voiceWork_confirm r s).map]; exact hs
  | gains => rw [(voiceWork_stepGains s).map]; exact hs
  | map m new hmap => rw [(voiceWork_checkEntries new { s with map := m }).map]; exact hmap hs
  | bank b x => cases b <;> exact hs
  | _ => exact hs

/-- Settles O54's first clause, from what a move can do to the map. -/
theorem step_keeps_sectionMapOk {s t : State} (hs : s.SectionMapOk) (h : step s = .next t) : t.SectionMapOk := by
  refine step_keeps (law := State.SectionMapOk) (fun _ _ h => h) (by decide) (fun u st hr hu => ?_) (fun u v hr hm hu => ?_) hs h
  · have hmap : u.map = SectionMap.reset := hu.1 hr
    refine (sectionMapOk_iff _).2 ⟨nofun, ?_⟩
    rw [show (beginLoad { u with power := { resetHeld := false, station := st } }).map = SectionMap.reset from hmap]
    refine ⟨List.Pairwise.nil, nofun, ?_, fun w => ?_⟩
    · fin_cases st <;> rfl
    · fin_cases w <;> decide
  · have hpower := hm.sameCore.2
    refine (sectionMapOk_iff v).2 ⟨fun hv => ?_, ?_⟩
    · rw [hpower, hr] at hv; cases hv
    · rw [hpower]; exact hm.map_ok hu.2

/-- Keys in strict order, none of one station, are seven eighths of the sixty-four at most. -/
theorem SectionMap.Ok.length_le {own : Fin 8} {m : SectionMap} (h : m.Ok own) : m.entries.length ≤ 56 := by
  obtain ⟨horder, hentries, -⟩ := h
  have hnodup : (m.entries.map fun e => (e.station, e.tag)).Nodup := by
    refine (List.pairwise_map.2 (horder.imp fun {a b} hlt heq => ?_))
    simp only [Prod.mk.injEq] at heq
    exact absurd ((key_eq_iff a b).2 heq) hlt.ne
  have hcard := List.toFinset_card_of_nodup hnodup
  have hsub : (m.entries.map fun e => (e.station, e.tag)).toFinset ⊆ (Finset.univ.erase own) ×ˢ (Finset.univ : Finset (Fin 8)) := by
    intro p hp
    simp only [List.mem_toFinset, List.mem_map] at hp
    obtain ⟨e, he, rfl⟩ := hp
    simp [(hentries e he).1]
  have hle := Finset.card_le_card hsub
  rw [hcard, List.length_map, Finset.card_product, Finset.card_erase_of_mem (Finset.mem_univ _)] at hle
  simpa using hle

/-- Settles O54: every move keeps the map's law, and keys in order leave room for 56 entries of seven stations. -/
theorem stepKeepsSectionMap : Obligations.StepKeepsSectionMap :=
  ⟨fun _ _ => step_keeps_sectionMapOk, fun _ hs => SectionMap.Ok.length_le hs.2⟩

/-! ### The Section Line -/

@[simp] theorem loadUnreferenced_startUpDone (b : BankId) (s : State) :
    (loadUnreferenced b s).loader.startUpDone = s.loader.startUpDone := (voiceWork_loadUnreferenced b s).startUpDone

/-- The line's law looks at the line and at the end of the start-up load. -/
theorem lineOk_congr {s t : State} (hline : t.line = s.line) (hdone : t.loader.startUpDone = s.loader.startUpDone) (h : s.LineOk) :
    t.LineOk := by
  simpa only [State.LineOk, hline, hdone] using h

theorem lineOk_loadPending {s : State} (h : s.LineOk) : (loadPending s).LineOk :=
  lineOk_congr (loadPending_line s) (voiceWork_loadPending s).startUpDone h

theorem Touch.keeps_lineOk {s t : State} (h : Touch s t) (hs : s.LineOk) : t.LineOk := by
  cases h with
  | enqueued r => exact lineOk_enqueue hs r
  | remove p => exact lineOk_remove hs p
  | take => exact lineOk_loadPending hs
  | _ => exact hs

theorem lineOk_reloadPart {s : State} (h : s.LineOk) : (reloadPart s).LineOk := by
  obtain ⟨-, hidle, -, hactive, hdisabled, hstart, hmax⟩ := h
  exact ⟨QueueOk.nil, fun hne => ⟨rfl, (hidle hne).2⟩, fun _ => nofun, hactive, hdisabled, hstart, hmax⟩

theorem Deed.keeps_lineOk {s t : State} (h : Deed s t) (hs : s.LineOk) : t.LineOk := by
  cases h with
  | line x hline => exact hline hs
  | gains => exact lineOk_loadPending hs
  | bank b => cases b <;> exact hs
  | loadEnd image held lead line _ _ _ hline => exact hline hs
  | reload => exact lineOk_reloadPart hs
  | touch ht => exact ht.keeps_lineOk hs
  | _ => exact hs

/-- Settles O55: the queue's law by what an admission and a removal keep, the line's by its own steps. -/
theorem stepKeepsSectionLine : Obligations.StepKeepsSectionLine := fun _ _ hs h =>
  step_keeps (law := State.LineOk) (fun _ _ h => h) (by decide) (fun _ _ _ h => h)
    (fun _ _ _ hm => hm.keeps_of_deeds fun _ _ => Deed.keeps_lineOk) hs h

/-! ### The ports -/

theorem VoiceWork.portsOk {s t : State} (h : VoiceWork s t) (hheld : t.line.heldDropped = s.line.heldDropped) (hs : s.PortsOk) :
    t.PortsOk := by
  simpa only [State.PortsOk, h.sensor, h.resolver, h.badFrames, h.recordsDropped, hheld, h.audio, h.panel, h.pitch, h.key, h.scale]
    using hs

theorem portsOk_loadPending {s : State} (h : s.PortsOk) : (loadPending s).PortsOk :=
  (voiceWork_loadPending s).portsOk (by rw [loadPending_line]) h

theorem Touch.keeps_portsOk {s t : State} (h : Touch s t) (hs : s.PortsOk) : t.PortsOk := by
  cases h with
  | enqueued r => exact portsOk_enqueue hs r
  | take => exact portsOk_loadPending hs
  | _ => exact hs

theorem portsOk_reloadPart {s : State} (h : s.PortsOk) : (reloadPart s).PortsOk := by
  obtain ⟨hcount, hfifo, -, hsent, -⟩ := h
  obtain ⟨-, -, hsample, -, hlive, htune, -, -, hkey, -⟩ : State.reset.PortsOk := by decide
  exact ⟨hcount, hfifo, hsample, hsent, hlive, htune, nofun, nofun, hkey, nofun⟩

theorem Deed.keeps_portsOk {s t : State} (h : Deed s t) (hs : s.PortsOk) : t.PortsOk := by
  cases h with
  | sensor x h => exact h hs
  | resolver x _ h => exact h hs
  | pitch x h => exact h hs
  | key k scale h =>
    have ⟨hcount, hfifo, hsample, hsent, hlive, htune, hwaitT, hwaitU, _, hwaitK⟩ := hs
    exact ⟨hcount, hfifo, hsample, hsent, hlive, htune, hwaitT, hwaitU, h hs, hwaitK⟩
  | audio x h => exact h hs
  | panel x h => exact h hs
  | line x _ h => exact h hs
  | gains => exact portsOk_loadPending hs
  | bank b => cases b <;> exact hs
  | loadEnd image held lead line _ _ _ _ hports => exact hports hs
  | reload => exact portsOk_reloadPart hs
  | touch ht => exact ht.keeps_portsOk hs
  | _ => exact hs

/-- Settles O60: each block's own moves keep its counters, FIFOs and settings within their ranges. -/
theorem stepKeepsPorts : Obligations.StepKeepsPorts := fun _ _ hs h =>
  step_keeps (law := State.PortsOk) (fun _ _ h => h) (by decide) (fun _ _ _ h => h)
    (fun _ _ _ hm => hm.keeps_of_deeds fun _ _ => Deed.keeps_portsOk) hs h

/-! ### Reset -/

theorem voice_reset (t : Fin 8) : State.reset.voice t = none := by fin_cases t <;> rfl

theorem rank_reset (r : Fin 3) : State.reset.rank r = Rank.reset := by fin_cases r <;> rfl

theorem harmonyOk_reset : State.reset.HarmonyOk := by decide

theorem banksOk_reset : State.reset.BanksOk := by decide

/-- With no voice and every rank at its reset value nothing ties a rank to a slot. -/
theorem voicesOk_reset : State.reset.VoicesOk := by
  refine ⟨banksOk_reset, harmonyOk_reset, ?_, fun _ t => ?_, fun r => ?_, fun t => ?_⟩
  · intro t; simp [voice_reset]
  · simp [voice_reset]
  · rw [rank_reset]; exact ⟨rfl, nofun⟩
  · simp [voice_reset]

theorem pitchOk_reset : State.reset.PitchOk :=
  ⟨fun t => by simp [voice_reset], nofun, nofun, nofun, by decide⟩

/-- Settles O53: each law is evaluated on the reset state, where no slot holds a voice. -/
theorem lawsHoldAtReset : Obligations.LawsHoldAtReset :=
  ⟨by decide, by decide, banksOk_reset, harmonyOk_reset, voicesOk_reset, pitchOk_reset, by decide⟩

end Sys2Proof.Machine

/-!
The law of the pitch fields (R53, R77, R84 to R92): every voice stays on a note of the instrument, its base between the lowest and the
highest of them, its just offset within the table's reach.
-/

namespace Sys2Proof.Machine

/-! ### Values -/

theorem divHalfAway_mem {x : Int} {d n : Nat} (hd : 0 < d) (hx : x.natAbs ≤ n * d) :
    -(n : Int) ≤ divHalfAway x d ∧ divHalfAway x d ≤ n := by
  have hq : (2 * x.natAbs + d) / (2 * d) ≤ n := by
    rw [← Nat.lt_succ_iff, Nat.div_lt_iff_lt_mul (by omega)]
    have : n.succ * (2 * d) = 2 * (n * d) + 2 * d := by rw [Nat.succ_mul, ← mul_assoc, Nat.mul_comm n 2, mul_assoc]
    omega
  dsimp only [divHalfAway]
  generalize (2 * x.natAbs + d) / (2 * d) = q at hq
  split <;> omega

theorem approach_mem {low high x target : Int} (hx : low ≤ x ∧ x ≤ high) (ht : low ≤ target ∧ target ≤ high) (rate : Nat) :
    low ≤ approach x target rate ∧ approach x target rate ≤ high := by
  unfold approach
  split
  · exact ht
  · split <;> omega

/-- The programs the voices read are within their clamps. -/
theorem State.PitchOk.program {s : State} (h : s.PitchOk) (b : BankId) : (s.programOfBank b).PitchOk := by
  obtain ⟨-, -, ha, hb, -⟩ := h
  have hbank : (s.bank b).PitchOk := by cases b <;> assumption
  unfold State.programOfBank
  split
  · next x hx => exact hbank x hx
  · decide

theorem State.PitchOk.justTarget {s : State} (h : s.PitchOk) (note : Nat) (b : BankId) :
    -500 ≤ s.justTargetOf note b ∧ s.justTargetOf note b ≤ 500 := by
  unfold State.justTargetOf
  split
  · decide
  · next root _ =>
    dsimp only
    split
    · decide
    · have hstrength := (h.program b).1
      have htable : ∀ i, (s.justTable.getD i 0).natAbs ≤ 500 := by
        intro i
        rw [List.getD_eq_getElem?_getD]
        cases hi : s.justTable[i]? with
        | none => decide
        | some x =>
          have := h.2.1 x (List.mem_of_getElem? hi)
          simp only [Option.getD_some]; omega
      refine divHalfAway_mem (n := 500) (by decide) ?_
      rw [Int.natAbs_mul, Int.natAbs_natCast]
      exact Nat.mul_le_mul (htable _) hstrength

/-! ### Voices -/

theorem Voice.PitchOk.composed {s : State} {v : Voice} (hnote : v.note ≤ 127) (hbase : 0 ≤ v.baseCurrent ∧ v.baseCurrent ≤ 127000)
    (htarget : v.baseTarget = 1000 * (v.note : Int)) (hcur : -500 ≤ v.justCurrent ∧ v.justCurrent ≤ 500)
    (hjust : -500 ≤ v.justTarget ∧ v.justTarget ≤ 500) : (s.composed v).PitchOk :=
  ⟨hnote, hbase, htarget, hcur, hjust, s.composed_pitch_le v, s.composed_increment v,
    (incrementOf_le_last _).trans_lt incrementEntry_1200_lt⟩

theorem State.PitchOk.newVoice {s : State} (h : s.PitchOk) {note : Nat} (hn : note ≤ 127) (role : Role) (b : BankId)
    (o : Option Nat) : (s.newVoice role note b o).PitchOk := by
  have hjust := h.justTarget note b
  exact Voice.PitchOk.composed hn (by simp only; omega) rfl hjust hjust

theorem Voice.PitchOk.glide {s : State} {v : Voice} (h : v.PitchOk) : (s.glide v).PitchOk := by
  obtain ⟨hnote, hbase, htarget, hrest⟩ := h
  have hreach : 0 ≤ v.baseTarget ∧ v.baseTarget ≤ 127000 := by omega
  refine ⟨hnote, ?_, htarget, hrest⟩
  dsimp only [State.glide]
  split
  · exact hreach
  · exact approach_mem hbase hreach _

theorem State.PitchOk.tune {s : State} (h : s.PitchOk) {v : Voice} (hv : v.PitchOk) : (s.tune v).PitchOk := by
  obtain ⟨hnote, hbase, htarget, hcur, -⟩ := hv
  have hjust := h.justTarget v.note v.bank
  exact Voice.PitchOk.composed hnote hbase htarget (approach_mem hcur hjust _) hjust

theorem gainStep_voice {s : State} {x : Slot} {v : Voice} (h : (s.gainStep x).voice = some v) :
    ∃ w, x.voice = some w ∧ ∃ o, (v = { w with openingGain := o } ∧ w.releasing = false) ∨
      (w.releasing = true ∧ ∃ m, v = { w with state := m } ∧ v.releasing = true) := by
  unfold State.gainStep at h
  split at h
  · next hx => rw [hx] at h; cases h
  · next w hw =>
    refine ⟨w, hw, none, ?_⟩
    dsimp only at h
    split at h
    · next hst =>
      split at h
      · cases h
      · rw [hw] at h
        obtain rfl := Option.some.inj h
        exact .inr ⟨by simp [Voice.releasing, hst], w.state, rfl, by simp [Voice.releasing, hst]⟩
    · next step hst =>
      split at h
      · cases h
      · obtain rfl := Option.some.inj h
        exact .inr ⟨by simp [Voice.releasing, hst], _, rfl, rfl⟩
    · next hn hw' =>
      obtain rfl := Option.some.inj h
      refine .inl ⟨rfl, ?_⟩
      unfold Voice.releasing
      split
      · exact absurd ‹_› hn
      · exact absurd ‹_› (hw' _)
      · rfl

/-! ### The law -/

/-- The law of pitch from that of its parts. -/
theorem pitchOk_of {s t : State} (h : s.PitchOk) (hvoice : ∀ u v, t.voice u = some v → v.PitchOk) (hjust : ∀ x ∈ t.justTable, x ∈ s.justTable)
    (hbank : ∀ b, ∀ x ∈ (t.bank b).held?, x ∈ (s.bank b).held? ∨ x.params.PitchOk) (hlead : t.resolver.leadNote = s.resolver.leadNote ∨
      t.resolver.leadNote ≤ 127) : t.PitchOk := by
  obtain ⟨-, htable, ha, hb, hn⟩ := h
  refine ⟨hvoice, fun x hx => htable x (hjust x hx), fun x hx => ?_, fun x hx => ?_, ?_⟩
  · exact (hbank .bankA x hx).elim (ha x) id
  · exact (hbank .bankB x hx).elim (hb x) id
  · exact hlead.elim (fun he => he ▸ hn) id

theorem VoiceWork.image? {s t : State} (h : VoiceWork s t) : t.image? = s.image? := by
  simp only [State.image?, h.image]

theorem VoiceWork.justTable {s t : State} (h : VoiceWork s t) : t.justTable = s.justTable := by
  simp only [State.justTable, h.image?]

theorem loadUnreferenced_held (b c : BankId) (s : State) : ∀ x ∈ ((loadUnreferenced b s).bank c).held?, x ∈ (s.bank c).held? := by
  intro x hx
  rw [loadUnreferenced_bank] at hx
  split at hx
  · next h =>
    obtain ⟨rfl, -⟩ := h
    split at hx
    · cases hx
    · exact hx
  · exact hx

theorem loadPending_held (c : BankId) (s : State) : ∀ x ∈ ((loadPending s).bank c).held?, x ∈ (s.bank c).held? := fun x hx =>
  loadUnreferenced_held .bankA c s x (loadUnreferenced_held .bankB c _ x hx)

theorem pitchOk_loadPending {s : State} (h : s.PitchOk) : (loadPending s).PitchOk := by
  have hwork := voiceWork_loadPending s
  refine pitchOk_of h (fun u v hv => h.1 u v ?_) (fun x hx => hwork.justTable ▸ hx)
    (fun b x hx => .inl (loadPending_held b s x hx)) ?_
  · rwa [voice_congr (loadPending_slots s)] at hv
  · rw [hwork.resolver]; exact .inl rfl

theorem pitchOk_setVoice {s : State} (h : s.PitchOk) {v : Voice} (hv : v.PitchOk) (t : Fin 8) : (setVoice t (some v) s).PitchOk := by
  refine pitchOk_of h (fun u w hw => ?_) (fun _ hx => hx) (fun b x hx => .inl hx) (.inl rfl)
  rw [voice_setVoice] at hw
  split at hw
  · exact Option.some.inj hw ▸ hv
  · exact h.1 u w hw

theorem Touch.keeps_pitchOk {s t : State} (h : Touch s t) (hs : s.PitchOk) : t.PitchOk := by
  cases h with
  | restate t v x hv => exact pitchOk_setVoice hs (v := { v with state := x }) (hs.1 t v hv) t
  | renote t v x n hv hn =>
    have hn := hn hs
    obtain ⟨-, hbase, -, hrest⟩ := hs.1 t v hv
    exact pitchOk_setVoice hs (v := { v with state := x, note := n, baseTarget := 1000 * n }) ⟨hn, hbase, rfl, hrest⟩ t
  | take role n b o u hn _ =>
    refine pitchOk_loadPending (pitchOk_of hs (fun w v hv => ?_) (fun _ hx => hx) (fun b x hx => .inl hx) (.inl rfl))
    rw [voice_setSlot] at hv
    split at hv
    · obtain rfl := Option.some.inj hv
      exact hs.newVoice (hn hs) _ _ _
    · exact hs.1 w v hv
  | _ => exact hs

theorem pitchOk_mapVoices {s : State} (h : s.PitchOk) {f : Voice → Voice} (hf : ∀ v : Voice, v.PitchOk → (f v).PitchOk) :
    (mapVoices f s).PitchOk := by
  refine pitchOk_of h (fun u v hv => ?_) (fun _ hx => hx) (fun b x hx => .inl hx) (.inl rfl)
  rw [voice_mapVoices, Option.map_eq_some_iff] at hv
  obtain ⟨w, hw, rfl⟩ := hv
  exact hf w (h.1 u w hw)

theorem pitchOk_stepGains {s : State} (h : s.PitchOk) : (stepGains s).PitchOk := by
  refine pitchOk_loadPending (pitchOk_of h (fun u v hv => ?_) (fun _ hx => hx) (fun b x hx => .inl hx) (.inl rfl))
  rw [State.voice, slot_mapSlots] at hv
  obtain ⟨w, hw, o, ⟨rfl, -⟩ | ⟨-, m, rfl, -⟩⟩ := gainStep_voice hv
  · exact h.1 u w hw
  · exact h.1 u w hw

theorem voice_reloadPart (s : State) (t : Fin 8) : (reloadPart s).voice t = none := by fin_cases t <;> rfl

theorem Deed.keeps_pitchOk {s t : State} (h : Deed s t) (hs : s.PitchOk) : t.PitchOk := by
  cases h with
  | resolver x hlead => exact pitchOk_of hs hs.1 (fun _ hx => hx) (fun b x hx => .inl hx) hlead
  | gains => exact pitchOk_stepGains hs
  | glide => exact pitchOk_mapVoices hs fun _ => Voice.PitchOk.glide
  | tune => exact pitchOk_mapVoices hs fun _ => hs.tune
  | slots x hx =>
    exact pitchOk_of hs (fun u v hv => hs.1 u v ((hx u).symm.trans hv)) (fun _ hx => hx) (fun b x hx => .inl hx) (.inl rfl)
  | bank b x reading _ hprogram =>
    have hb : ∀ c, State.bank { setBank b x s with loader := { s.loader with reading := reading } } c =
        if c = b then x else s.bank c := fun c => bank_setBank s b c x
    refine pitchOk_of hs (fun u v hv => hs.1 u v (by cases b <;> exact hv)) (fun _ hy => hy) (fun c y hy => ?_)
      (.inl (by cases b <;> rfl))
    rw [hb] at hy
    split at hy
    · next hc => rw [hc]; exact hprogram y hy
    · exact .inl hy
  | defaultRead n =>
    refine pitchOk_of hs hs.1 (fun _ hx => hx) (fun c y hy => ?_) (.inl rfl)
    cases c <;> cases hy
  | loadEnd image held lead line hload himage hlead =>
    obtain ⟨hvoice, -, -, -, hn⟩ := hs
    obtain ⟨rfl, rfl⟩ | ⟨img, rfl, hjust, hheld⟩ := himage
    · exact ⟨hvoice, nofun, nofun, nofun, hlead.elim (fun he => he ▸ hn) id⟩
    · refine ⟨hvoice, hjust, fun x hx => hheld x ?_, nofun, hlead.elim (fun he => he ▸ hn) id⟩
      cases held with
      | none => cases hx
      | some y => exact hx
  | reload =>
    exact ⟨fun u v hv => (by rw [voice_reloadPart] at hv; cases hv), nofun, nofun, nofun, (by decide : 60 ≤ 127)⟩
  | touch ht => exact ht.keeps_pitchOk hs
  | _ => exact hs

/-- Settles O59: notes come from folds and frames of the lead note, bases move toward their targets, offsets toward table values. -/
theorem stepKeepsPitch : Obligations.StepKeepsPitch := fun _ _ hs h =>
  step_keeps (law := State.PitchOk) (fun _ _ h => h) pitchOk_reset
    (fun u st _ hu => pitchOk_of (t := beginLoad { u with power := { resetHeld := false, station := st } })
      hu hu.1 nofun (fun _ _ hx => .inl hx) (.inl rfl))
    (fun _ _ _ hm => hm.keeps_of_deeds fun _ _ => Deed.keeps_pitchOk) hs h

end Sys2Proof.Machine

/-!
The law of the Program Banks (R67, R71): a voice keeps its bank for life, so that references change only where a slot is taken or freed,
and there a PENDING bank that lost its last reference goes on to LOADING.
-/

namespace Sys2Proof.Machine

/-- The banks' law without its clause on PENDING banks, as it stands where references may just have gone. -/
def State.BanksHeld (s : State) : Prop :=
  (∀ b, s.referenced b = true → (s.bank b).held?.isSome = true) ∧
  (∀ x ∈ s.loader.reading, s.readAgrees x = true) ∧
  (s.image? = none → (∀ t : Fin 8, s.voice t = none) ∧ ∀ b, (s.bank b).held? = none) ∧
  (s.power.resetHeld = true → s.image? = none)

theorem banksOk_iff_held (s : State) :
    s.BanksOk ↔ s.BanksHeld ∧ ∀ b, (s.bank b).waits = true → s.referenced b = true := by
  rw [banksOk_iff]
  constructor
  · rintro ⟨hbank, hrest⟩
    exact ⟨⟨fun b => (hbank b).1, hrest⟩, fun b => (hbank b).2⟩
  · rintro ⟨⟨hheld, hrest⟩, hwaits⟩
    exact ⟨fun b => ⟨hheld b, hwaits b⟩, hrest⟩

/-- What the law looks at: the references, and the blocks of banks, loader and power. -/
theorem referenced_congr {s t : State} (h : ∀ u, (t.voice u).map Voice.bank = (s.voice u).map Voice.bank) (b : BankId) :
    t.referenced b = s.referenced b := by
  rw [Bool.eq_iff_iff]
  constructor <;> intro hr <;> obtain ⟨u, v, hv, rfl⟩ := voice_of_referenced hr
  · have := h u
    rw [hv, Option.map_some, eq_comm, Option.map_eq_some_iff] at this
    obtain ⟨w, hw, hb⟩ := this
    exact hb ▸ referenced_of_voice hw
  · have := h u
    rw [hv, Option.map_some, Option.map_eq_some_iff] at this
    obtain ⟨w, hw, hb⟩ := this
    exact hb ▸ referenced_of_voice hw

theorem voice_eq_none_congr {s t : State} (h : ∀ u, (t.voice u).map Voice.bank = (s.voice u).map Voice.bank) {u : Fin 8}
    (hu : s.voice u = none) : t.voice u = none := by
  have := h u
  rwa [hu, Option.map_none, Option.map_eq_none_iff] at this

theorem readAgrees_congr {s t : State} (h : t.banks = s.banks) (x : ReadInFlight) : t.readAgrees x = s.readAgrees x := by
  cases x <;> simp [State.readAgrees, bank_congr h]

/-- The law where no reference changes. -/
theorem banksOk_congr {s t : State} (h : s.BanksOk) (hvoice : ∀ u, (t.voice u).map Voice.bank = (s.voice u).map Voice.bank)
    (ha : t.banks.a = s.banks.a) (hb : t.banks.b = s.banks.b) (hloader : t.loader = s.loader) (hpower : t.power = s.power) :
    t.BanksOk := by
  have hbank : ∀ b, t.bank b = s.bank b := fun b => by cases b <;> simp [State.bank, ha, hb]
  have hread : ∀ x, t.readAgrees x = s.readAgrees x := fun x => by cases x <;> simp [State.readAgrees, hbank]
  have himage : t.image? = s.image? := by simp only [State.image?, hloader]
  rw [banksOk_iff] at h ⊢
  simp only [State.BankOk, referenced_congr hvoice, hbank, hread, himage, hloader, hpower] at h ⊢
  obtain ⟨hok, hreading, hnone, hreset⟩ := h
  exact ⟨hok, hreading, fun hi => ⟨fun u => voice_eq_none_congr hvoice ((hnone hi).1 u), (hnone hi).2⟩, hreset⟩

/-! ### A PENDING bank without references -/

theorem loadUnreferenced_voice (b : BankId) (s : State) (u : Fin 8) : (loadUnreferenced b s).voice u = s.voice u :=
  voice_congr (loadUnreferenced_slots b s) u

theorem loadUnreferenced_referenced (b c : BankId) (s : State) : (loadUnreferenced b s).referenced c = s.referenced c :=
  referenced_congr (fun u => by rw [loadUnreferenced_voice]) c

theorem loadPending_referenced (b : BankId) (s : State) : (loadPending s).referenced b = s.referenced b :=
  referenced_congr (fun u => by rw [voice_congr (loadPending_slots s)]) b

/-- Either nothing happens, or the bank is LOADING with its number and its read is the one in flight (R71). -/
theorem loadUnreferenced_cases (b : BankId) (s : State) :
    (loadUnreferenced b s = s ∧ ((s.bank b).waits = true → s.referenced b = true)) ∨
    ∃ n, s.referenced b = false ∧ loadUnreferenced b s =
      { setBank b (.loading n) s with loader := { s.loader with reading := some (.programRead b n) } } := by
  unfold loadUnreferenced
  split
  · next n _ hb =>
    split
    · next hr => exact .inl ⟨rfl, fun _ => hr⟩
    · next hr => exact .inr ⟨n, by simpa using hr, by cases b <;> rfl⟩
  · next hb =>
    refine .inl ⟨rfl, fun hw => ?_⟩
    unfold BankState.waits at hw
    split at hw
    · next n x hx => exact absurd hx (hb n x)
    · cases hw

theorem banksHeld_loadUnreferenced {s : State} (h : s.BanksHeld) (b : BankId) : (loadUnreferenced b s).BanksHeld := by
  obtain ⟨heq, -⟩ | ⟨n, hr, heq⟩ := loadUnreferenced_cases b s
  · rwa [heq]
  · obtain ⟨hheld, hread, himage, hreset⟩ := h
    have hbank : ∀ c, (loadUnreferenced b s).bank c = if c = b then .loading n else s.bank c := fun c => by
      rw [heq]; exact bank_setBank s b c _
    have hi := (voiceWork_loadUnreferenced b s).image?
    have hp := (voiceWork_loadUnreferenced b s).power
    refine ⟨fun c hc => ?_, fun x hx => ?_, fun hn => ⟨fun t => ?_, fun c => ?_⟩, fun hq => ?_⟩
    · rw [loadUnreferenced_referenced] at hc
      rw [hbank, if_neg (by rintro rfl; rw [hr] at hc; cases hc)]
      exact hheld c hc
    · rw [heq] at hx
      obtain rfl := Option.some.inj hx
      rw [State.readAgrees, hbank, if_pos rfl, decide_eq_true_eq]
    · rw [loadUnreferenced_voice]; exact (himage (hi ▸ hn)).1 t
    · rw [hbank]
      split
      · rfl
      · exact (himage (hi ▸ hn)).2 c
    · rw [hi]; exact hreset (hp ▸ hq)

/-- A bank that waits after the check is one that waited before and is referenced. -/
theorem loadUnreferenced_waits {b c : BankId} {s : State} (h : ((loadUnreferenced b s).bank c).waits = true) :
    (s.bank c).waits = true ∧ (c = b → s.referenced b = true) := by
  obtain ⟨heq, hw⟩ | ⟨n, -, heq⟩ := loadUnreferenced_cases b s
  · rw [heq] at h
    exact ⟨h, fun hc => hw (hc ▸ h)⟩
  · rw [heq] at h
    have hbank : State.bank { setBank b (.loading n) s with loader := { s.loader with reading := some (.programRead b n) } } c =
        if c = b then .loading n else s.bank c := bank_setBank s b c _
    rw [hbank] at h
    split at h
    · cases h
    · next hc => exact ⟨h, fun he => absurd he hc⟩

/-- After slots stopped referencing banks the check restores the law (R71). -/
theorem banksOk_loadPending {s : State} (h : s.BanksHeld) : (loadPending s).BanksOk := by
  refine (banksOk_iff_held _).2 ⟨banksHeld_loadUnreferenced (banksHeld_loadUnreferenced h _) _, fun c hc => ?_⟩
  rw [loadPending_referenced]
  obtain ⟨hc, hb⟩ := loadUnreferenced_waits hc
  obtain ⟨hc, ha⟩ := loadUnreferenced_waits hc
  cases c with
  | bankA => exact ha rfl
  | bankB => exact (loadUnreferenced_referenced .bankA .bankB s) ▸ hb rfl

/-- Voices that keep their banks, some of them gone, reference no more than before. -/
theorem banksHeld_of_fewer {s t : State} (h : s.BanksOk) (hvoice : ∀ u v, t.voice u = some v → ∃ w, s.voice u = some w ∧ v.bank = w.bank)
    (hbanks : t.banks = s.banks) (hloader : t.loader = s.loader) (hpower : t.power = s.power) : t.BanksHeld := by
  obtain ⟨⟨hheld, hread, himage, hreset⟩, -⟩ := (banksOk_iff_held s).1 h
  have hi : t.image? = s.image? := by simp only [State.image?, hloader]
  refine ⟨fun b hr => ?_, fun x hx => ?_, fun hn => ⟨fun u => ?_, fun b => ?_⟩, fun hq => ?_⟩
  · obtain ⟨u, v, hv, rfl⟩ := voice_of_referenced hr
    obtain ⟨w, hw, hb⟩ := hvoice u v hv
    rw [bank_congr hbanks, hb]
    exact hheld _ (referenced_of_voice hw)
  · rw [readAgrees_congr hbanks]; exact hread x (hloader ▸ hx)
  · cases hv : t.voice u with
    | none => rfl
    | some v =>
      obtain ⟨w, hw, -⟩ := hvoice u v hv
      rw [(himage (hi ▸ hn)).1 u] at hw; cases hw
  · rw [bank_congr hbanks]; exact (himage (hi ▸ hn)).2 b
  · rw [hi]; exact hreset (hpower ▸ hq)

theorem banksOk_stepGains {s : State} (h : s.BanksOk) : (stepGains s).BanksOk := by
  refine banksOk_loadPending (banksHeld_of_fewer h (fun u v hv => ?_) rfl rfl rfl)
  rw [State.voice, slot_mapSlots] at hv
  obtain ⟨w, hw, o, ⟨rfl, -⟩ | ⟨-, m, rfl, -⟩⟩ := gainStep_voice hv
  · exact ⟨w, hw, rfl⟩
  · exact ⟨w, hw, rfl⟩

/-- A slot is taken for a voice whose bank holds a program; what it held before may have been a bank's last reference (R52, R71). -/
theorem banksOk_take {s : State} (h : s.BanksOk) {x : Slot} {v : Voice} (hx : x.voice = some v)
    (hb : (s.bank v.bank).held?.isSome = true) (u : Fin 8) : (loadPending (setSlot u x s)).BanksOk := by
  obtain ⟨⟨hheld, hread, himage, hreset⟩, -⟩ := (banksOk_iff_held s).1 h
  have hi : s.image? ≠ none := fun hn => by simp [(himage hn).2 v.bank] at hb
  refine banksOk_loadPending ⟨fun b hr => ?_, hread, fun hn => absurd hn hi, hreset⟩
  obtain ⟨w, y, hy, rfl⟩ := voice_of_referenced hr
  rw [voice_setSlot] at hy
  split at hy
  · rw [hx] at hy
    obtain rfl := Option.some.inj hy
    exact hb
  · exact hheld _ (referenced_of_voice hy)

theorem banksOk_setVoice {s : State} (h : s.BanksOk) {t : Fin 8} {v w : Voice} (hv : s.voice t = some v) (hb : w.bank = v.bank) :
    (setVoice t (some w) s).BanksOk := by
  refine banksOk_congr h (fun u => ?_) rfl rfl rfl rfl
  rw [voice_setVoice]
  split
  · next hu => rw [hu, hv, Option.map_some, Option.map_some, hb]
  · rfl

theorem banksOk_mapVoices {s : State} (h : s.BanksOk) {f : Voice → Voice} (hf : ∀ v, (f v).bank = v.bank) :
    (mapVoices f s).BanksOk := by
  refine banksOk_congr h (fun u => ?_) rfl rfl rfl rfl
  rw [voice_mapVoices, Option.map_map]
  congr 1
  exact funext hf

theorem Touch.keeps_banksOk {s t : State} (h : Touch s t) (hs : s.BanksOk) : t.BanksOk := by
  cases h with
  | restate t v x hv => exact banksOk_setVoice hs hv rfl
  | renote t v x n hv => exact banksOk_setVoice hs hv rfl
  | take role n b o u _ hb => exact banksOk_take hs (v := s.newVoice role n b o) rfl (hb hs) u
  | _ => exact hs

/-- With no image installed no voice stands, and banks that hold nothing meet the law. -/
theorem banksOk_of_no_voice {s : State} (hvoice : ∀ t, s.voice t = none) (hwaits : ∀ b, (s.bank b).waits = false)
    (hread : ∀ x ∈ s.loader.reading, s.readAgrees x = true) (hheld : s.image? = none → ∀ b, (s.bank b).held? = none)
    (hreset : s.power.resetHeld = true → s.image? = none) : s.BanksOk := by
  refine (banksOk_iff s).2 ⟨fun b => ⟨fun hr => ?_, fun hw => ?_⟩, hread, fun hi => ⟨hvoice, hheld hi⟩, hreset⟩
  · obtain ⟨t, v, hv, -⟩ := voice_of_referenced hr
    rw [hvoice] at hv; cases hv
  · rw [hwaits] at hw; cases hw

theorem no_voice_of_loading {s : State} (h : s.BanksOk) (hl : s.loadingImage = true) (t : Fin 8) : s.voice t = none :=
  (h.2.2.2.1 (image_none_of_loading hl)).1 t

theorem reading_of_loading {s : State} (hl : s.loadingImage = true) : s.loader.reading = some .imageLoad := by
  simp only [State.loadingImage, decide_eq_true_eq] at hl
  exact hl.2

theorem Deed.keeps_banksOk {s t : State} (h : Deed s t) (hr : s.Running) (hs : s.BanksOk) : t.BanksOk := by
  cases h with
  | gains => exact banksOk_stepGains hs
  | glide => exact banksOk_mapVoices hs fun _ => rfl
  | tune => exact banksOk_mapVoices hs fun _ => rfl
  | slots x hx => exact banksOk_congr hs (fun u => congrArg _ (hx u)) rfl rfl rfl rfl
  | bank b x reading hbanks => exact hbanks hs
  | defaultRead n hl =>
    have hvoice := no_voice_of_loading hs hl
    refine banksOk_of_no_voice hvoice (fun b => by cases b <;> rfl) (fun x hx => ?_)
      (fun _ b => by cases b <;> rfl) hs.2.2.2.2
    rw [show State.loader _ = s.loader from rfl, reading_of_loading hl] at hx
    obtain rfl := Option.some.inj hx
    rfl
  | loadEnd image held lead line hl himage =>
    have hvoice := no_voice_of_loading hs hl
    refine banksOk_of_no_voice hvoice (fun b => ?_) nofun (fun hi b => ?_) fun hq => ?_
    · cases b <;> cases held <;> rfl
    · obtain ⟨rfl, rfl⟩ | ⟨img, rfl, -⟩ := himage
      · cases b <;> rfl
      · cases hi
    · exact absurd (hr.symm.trans hq) nofun
  | reload =>
    exact banksOk_of_no_voice (voice_reloadPart s) (fun b => by cases b <;> rfl) (by rintro _ ⟨⟩; rfl)
      (fun _ b => by cases b <;> rfl) fun _ => rfl
  | touch ht => exact ht.keeps_banksOk hs
  | detectors | selector | line | breath | map | sensor | resolver | pitch | key | audio | panel => exact hs

theorem Touch.power {s t : State} (h : Touch s t) : t.power = s.power := by
  cases h with
  | take role n b o u => exact (voiceWork_loadPending _).power
  | enqueued r => exact (voiceWork_admit r s).power
  | _ => rfl

theorem Deed.power {s t : State} (h : Deed s t) : t.power = s.power := by
  cases h with
  | gains => exact (voiceWork_stepGains s).power
  | bank b => cases b <;> rfl
  | touch ht => exact ht.power
  | _ => rfl

theorem Move.keeps_banksOk {s t : State} (h : Move s t) (hr : s.Running) (hs : s.BanksOk) : t.BanksOk :=
  (h.keeps_of_deeds (law := fun t => t.Running ∧ t.BanksOk)
    (fun _ _ hd ⟨hr, hs⟩ => ⟨(congrArg Power.resetHeld hd.power).trans hr, hd.keeps_banksOk hr hs⟩) ⟨hr, hs⟩).2

/-- The release of reset starts a load with no image, as reset had none. -/
theorem banksOk_beginLoad {s : State} (h : s.BanksOk) (hr : s.power.resetHeld = true) (st : Fin 8) :
    (beginLoad { s with power := { resetHeld := false, station := st } }).BanksOk := by
  obtain ⟨hbank, -, himage, hreset⟩ := (banksOk_iff s).1 h
  exact (banksOk_iff _).2 ⟨hbank, by rintro _ ⟨⟩; rfl, fun _ => himage (hreset hr), fun _ => rfl⟩

/-- Settles O57: references change where slots are taken or freed, and there the banks are checked. -/
theorem stepKeepsBanks : Obligations.StepKeepsBanks := fun _ _ hs h =>
  step_keeps (law := State.BanksOk) (fun _ _ h => h) banksOk_reset (fun _ st hr hu => banksOk_beginLoad hu hr st)
    (fun _ _ hr hm => hm.keeps_banksOk hr) hs h

end Sys2Proof.Machine

/-!
The law of the Harmony Ranks (R95, R99, R109, R117), rank record by rank record: what gives a claim up, what makes one, and what leaves
nothing where no note sounds.
-/

namespace Sys2Proof.Machine

theorem foldl_keeps {α β : Type} {law : β → Prop} {f : β → α → β} (hf : ∀ s a, law s → law (f s a)) (l : List α) {s : β} (h : law s) :
    law (l.foldl f s) := by
  induction l generalizing s with
  | nil => exact h
  | cons a l ih => exact ih (hf s a h)

/-! ### The records -/

/-- The part of the law that looks at the rank records alone. -/
def State.RanksOk (s : State) : Prop :=
  (∀ r : Fin 3, RankOk (s.rank r)) ∧
  ∀ q r : Fin 3, q ≠ r → (s.rank q).outstanding = true → (s.rank r).outstanding = true →
    (s.rank q).claim.map Claim.number ≠ (s.rank r).claim.map Claim.number

theorem ranksOk_congr {s t : State} (h : ∀ r, t.rank r = s.rank r) (hs : s.RanksOk) : t.RanksOk := by
  simpa only [State.RanksOk, h] using hs

/-- One record changes to one that meets the law, with a number of its own where it is outstanding. -/
theorem ranksOk_one {s t : State} (r : Fin 3) (hs : s.RanksOk) (hother : ∀ q, q ≠ r → t.rank q = s.rank q) (hr : RankOk (t.rank r))
    (hnumber : (t.rank r).outstanding = true → ∀ q, q ≠ r → (s.rank q).outstanding = true →
      (s.rank q).claim.map Claim.number ≠ (t.rank r).claim.map Claim.number) : t.RanksOk := by
  refine ⟨fun q => ?_, fun p q hpq hp hq => ?_⟩
  · by_cases h : q = r
    · rw [h]; exact hr
    · rw [hother q h]; exact hs.1 q
  · by_cases h : p = r
    · have hqr : q ≠ r := fun he => hpq (h.trans he.symm)
      subst h
      rw [hother q hqr] at hq ⊢
      exact (hnumber hp q hqr hq).symm
    · rw [hother p h] at hp ⊢
      by_cases h' : q = r
      · subst h'; exact hnumber hq p h hp
      · rw [hother q h'] at hq ⊢
        exact hs.2 p q hpq hp hq

/-- A record without a claim, IDLE or EXHAUSTED, with a refused list that meets the law. -/
theorem ranksOk_no_claim {s t : State} (r : Fin 3) (hs : s.RanksOk) (hother : ∀ q, q ≠ r → t.rank q = s.rank q)
    (hclaim : (t.rank r).claim = none) (hstage : (t.rank r).stage = .idle ∨ (t.rank r).stage = .exhausted)
    (hrefused : (t.rank r).refused.Nodup ∧ (t.rank r).refused.length ≤ Config.refusedLimit) : t.RanksOk := by
  refine ranksOk_one r hs hother ⟨⟨fun _ => hstage, fun _ => hclaim⟩, hrefused⟩ fun hout => ?_
  unfold Rank.outstanding at hout
  obtain h | h := hstage <;> simp [h] at hout

theorem ranksOk_giveUp {s : State} (hs : s.RanksOk) (r : Fin 3) : (giveUp r s).RanksOk := by
  refine ranksOk_no_claim r hs (fun q hq => by rw [giveUp_rank, if_neg hq]) ?_ ?_ ?_ <;> rw [giveUp_rank, if_pos rfl]
  · exact .inl rfl
  · exact (hs.1 r).2

theorem ranksOk_exhaust {s : State} (hs : s.RanksOk) (r : Fin 3) : (exhaust r s).RanksOk := by
  refine ranksOk_no_claim r hs (fun q hq => by rw [exhaust_rank, if_neg hq]) ?_ ?_ ?_ <;> rw [exhaust_rank, if_pos rfl]
  · exact .inr rfl
  · exact (hs.1 r).2

theorem ranksOk_abandonClaim {s : State} (hs : s.RanksOk) (r : Fin 3) : (abandonClaim r s).RanksOk := by
  refine ranksOk_no_claim r hs (fun q hq => by rw [abandonClaim_rank, if_neg hq]) ?_ ?_ ?_ <;> rw [abandonClaim_rank, if_pos rfl]
  · exact .inl rfl
  · exact ⟨List.nodup_nil, Nat.zero_le _⟩

theorem ranksOk_idleRank {s : State} (hs : s.RanksOk) (r : Fin 3) : (idleRank r s).RanksOk := by
  refine ranksOk_no_claim r hs (fun q hq => by rw [idleRank_rank, if_neg hq]) ?_ ?_ ?_ <;> rw [idleRank_rank, if_pos rfl]
  · exact .inl rfl
  · exact ⟨List.nodup_nil, Nat.zero_le _⟩

/-- A claim takes a number no other outstanding claim has (R99). -/
theorem ranksOk_makeClaim {s : State} (hs : s.RanksOk) (r : Fin 3) (pos note : Nat) (b : BankId) (keep : Bool) :
    (makeClaim r pos note b keep s).RanksOk := by
  obtain ⟨hclaim, hstage, -, hrefused, -, -, hother⟩ := makeClaim_rank r pos note b keep s
  refine ranksOk_one r hs hother ⟨?_, ?_⟩ fun _ q hq hout heq => ?_
  · rw [hclaim, hstage]
    split <;> simp
  · rw [hrefused]; exact (hs.1 r).2
  · rw [hclaim, Option.map_some, Option.map_eq_some_iff] at heq
    obtain ⟨c, hc, hn⟩ := heq
    have hused := mem_usedNumbers hq hout hc
    rw [hn] at hused
    exact claimNumber_fresh s r hused

theorem ranksOk_plan {s : State} (hs : s.RanksOk) (r : Fin 3) (start : Nat) (keep : Bool) : (plan r start keep s).RanksOk := by
  unfold plan
  split
  · exact hs
  · dsimp only
    split
    · exact ranksOk_exhaust hs r
    · exact ranksOk_makeClaim hs r _ _ _ _

theorem ranksOk_yieldRank {s : State} (hs : s.RanksOk) (r : Fin 3) : (yieldRank r s).RanksOk := by
  unfold yieldRank
  split
  · exact hs
  · next c _ =>
    dsimp only
    refine ranksOk_plan (ranksOk_no_claim r (ranksOk_giveUp hs r) (fun q hq => ?_) ?_ ?_ ?_) r _ _
    · rw [rank_setRank, if_neg hq]
    · rw [rank_setRank_same, giveUp_rank, if_pos rfl]
    · rw [rank_setRank_same, giveUp_rank, if_pos rfl]; exact .inl rfl
    · rw [rank_setRank_same, giveUp_rank, if_pos rfl]
      obtain ⟨hnodup, hlength⟩ := (hs.1 r).2
      exact ⟨(refuse_ok hnodup hlength).1, (refuse_ok hnodup hlength).2.1⟩

theorem ranksOk_enableChanged {s : State} (hs : s.RanksOk) (r : Fin 3) (before after : Bool) :
    (enableChanged r before after s).RanksOk := by
  unfold enableChanged
  split
  · exact ranksOk_giveUp hs r
  · split
    · exact ranksOk_plan hs r _ _
    · exact hs

/-- A law that each rank's change of enable keeps. -/
theorem changeEnables_keeps {law : State → Prop}
    (hlaw : ∀ (s : State) (r : Fin 3) (before after : Bool), law s → law (enableChanged r before after s)) {f : State → State}
    {s : State} (h : law (f s)) : law (changeEnables f s) :=
  foldl_keeps (f := fun acc r => enableChanged r (s.enabled r) ((f s).enabled r) acc) (fun acc r => hlaw acc r _ _) allRanks h

theorem ranksOk_planAll {s : State} (hs : s.RanksOk) (keep : Bool) : (planAll keep s).RanksOk := by
  refine foldl_keeps (law := State.RanksOk) (fun s r hs => ?_) _ hs
  split
  · exact ranksOk_plan hs r _ _
  · exact hs

@[simp] theorem releaseSlots_harmony (s : State) : (releaseSlots s).harmony = s.harmony :=
  foldl_keeps (law := fun t : State => t.harmony = s.harmony) (fun t u ht => (releaseSlot_harmony _ u t).trans ht) _ rfl

theorem ranksOk_releaseAll {s : State} (hs : s.RanksOk) : (releaseAll s).RanksOk :=
  foldl_keeps (law := State.RanksOk) (fun _ r hs => ranksOk_idleRank hs r) _
    (ranksOk_congr (rank_congr (releaseSlots_harmony s)) hs)

@[simp] theorem legato_harmony (t : Fin 8) (s : State) : (legato t s).harmony = s.harmony := by
  unfold legato
  split
  · rw [queueNoteStart_harmony]; rfl
  · rfl

theorem ranksOk_deliverLeadChange {s : State} (hs : s.RanksOk) : (deliverLeadChange s).RanksOk := by
  unfold deliverLeadChange
  split
  · split
    · next t _ =>
      exact ranksOk_planAll (foldl_keeps (law := State.RanksOk) (fun _ r hs => ranksOk_abandonClaim hs r) _
        (ranksOk_congr (rank_congr (legato_harmony t s)) hs)) true
    · exact hs
  · exact hs

theorem allocate_harmony (role : Role) (note : Nat) (b : BankId) (o : Option Nat) (s : State) :
    (allocate role note b o s).2.harmony = s.harmony := by
  unfold allocate
  split
  · rw [loadPending_harmony]; rfl
  · rfl

theorem ranksOk_leadStart {s : State} (hs : s.RanksOk) : (leadStart s).RanksOk := by
  unfold leadStart
  split
  · exact hs
  · have h := allocate_harmony .lead s.resolver.leadNote s.banks.selector (some s.breath.onsetPeak) s
    split
    · next t u hu =>
      rw [hu] at h
      exact ranksOk_planAll (ranksOk_congr (rank_congr ((queueNoteStart_harmony t u).trans h)) hs) false
    · next u hu => rw [hu] at h; exact ranksOk_congr (rank_congr h) hs

/-- A confirmation moves the stage of its rank, and its slot (R57, R107). -/
theorem confirm_rank (r q : Fin 3) (s : State) :
    (confirm r s).rank q = if q = r then { s.rank r with stage := .sounding, localDue := false } else s.rank q := by
  have h : (confirm r s).harmony = (setRank r { s.rank r with stage := .sounding, localDue := false } s).harmony := by
    unfold confirm
    dsimp only
    split
    · split
      · rw [queueNoteStart_harmony]; rfl
      · rfl
    · rfl
  rw [rank_congr h, rank_setRank]

theorem ranksOk_confirm {s : State} (hs : s.RanksOk) {r : Fin 3} (h : (s.rank r).stage = .window ∨ (s.rank r).stage = .localPending) :
    (confirm r s).RanksOk := by
  obtain ⟨hclaim, hrefused⟩ := hs.1 r
  have hsome : (s.rank r).claim ≠ none := fun hn => by
    obtain hi | he := hclaim.1 hn <;> obtain hw | hl := h <;> simp_all
  refine ranksOk_one r hs (fun q hq => by rw [confirm_rank, if_neg hq]) ?_ ?_ <;> rw [confirm_rank, if_pos rfl]
  · exact ⟨by simp [hsome], hrefused⟩
  · exact nofun

theorem ranksOk_checkEntry {s : State} (hs : s.RanksOk) (e : MapEntry) : (checkEntry e s).RanksOk := by
  refine foldl_keeps (law := State.RanksOk) (fun s r hs => ?_) _ hs
  split
  · exact ranksOk_yieldRank hs r
  · exact hs

theorem Move.keeps_ranksOk {s t : State} (h : Move s t) (hs : s.RanksOk) : t.RanksOk := by
  cases h with
  | release x => exact ranksOk_releaseAll hs
  | lead n => exact ranksOk_deliverLeadChange hs
  | start x => exact ranksOk_leadStart hs
  | enables m l =>
    exact changeEnables_keeps (law := State.RanksOk) (f := fun x => { x with harmony := { x.harmony with master := m, liveRanks := l } })
      (fun _ r b a hs => ranksOk_enableChanged hs r b a) hs
  | yields r => exact ranksOk_yieldRank hs r
  | confirm r h => exact ranksOk_confirm hs h
  | rank r k hkeep hstage =>
    obtain ⟨hclaim, hrefused, -⟩ := hkeep
    obtain ⟨hiff, hlist⟩ := hs.1 r
    refine ranksOk_one r hs (fun q hq => by rw [rank_setRank, if_neg hq]) ?_ ?_ <;> rw [rank_setRank_same]
    · refine ⟨?_, hrefused ▸ hlist⟩
      rw [hclaim, hiff]
      obtain h | ⟨h, h' | h'⟩ := hstage
      · rw [h]
      · simp [h, h']
      · simp [h, h']
    · intro hout q hq hq'
      rw [hclaim]
      refine hs.2 q r hq hq' ?_
      unfold Rank.outstanding at hout ⊢
      obtain h | ⟨h, -⟩ := hstage
      · rwa [h] at hout
      · simp [h]
  | gains => exact ranksOk_congr (rank_congr (loadPending_harmony _)) hs
  | map m new => exact foldl_keeps (law := State.RanksOk) (fun _ e hs => ranksOk_checkEntry hs e) new hs
  | bank b => cases b <;> exact hs
  | reload => exact ⟨harmonyOk_reset.1, harmonyOk_reset.2.1⟩
  | _ => exact hs

/-! ### Silence -/

theorem leadTag_eq_none_iff {s : State} :
    s.leadTag = none ↔ ∀ t v, s.voice t = some v → ¬ (v.role = .lead ∧ v.sounding = true) := by
  simp only [State.leadTag, List.find?_eq_none]
  constructor
  · intro h t v hv
    have := h t (by fin_cases t <;> decide)
    simpa [hv] using this
  · intro h t _
    cases hv : s.voice t with
    | none => simp
    | some v => simpa using h t v hv

/-- No lead, no claim, no refused note: what stands while the articulation is not SOUNDING (R117). -/
abbrev State.Silent (s : State) : Prop :=
  s.leadTag = none ∧ ∀ r : Fin 3, (s.rank r).claim = none ∧ (s.rank r).refused = []

/-- No voice becomes a SOUNDING lead. -/
abbrev State.LeadsTo (s t : State) : Prop :=
  ∀ u v, t.voice u = some v → v.role = .lead ∧ v.sounding = true →
    ∃ w, s.voice u = some w ∧ w.role = .lead ∧ w.sounding = true

theorem leadTag_none_of_leadsTo {s t : State} (h : s.LeadsTo t) (hs : s.leadTag = none) : t.leadTag = none := by
  rw [leadTag_eq_none_iff] at hs ⊢
  intro u v hv hlead
  obtain ⟨w, hw, hlead⟩ := h u v hv hlead
  exact hs u w hw hlead

theorem silent_congr {s t : State} (hvoice : s.LeadsTo t) (hrank : ∀ r, t.rank r = s.rank r) (hs : s.Silent) : t.Silent :=
  ⟨leadTag_none_of_leadsTo hvoice hs.1, fun r => by rw [hrank]; exact hs.2 r⟩

/-- A slot with a voice released is not sounding. -/
theorem releaseSlot_leadsTo {mode : VoiceState} (hmode : mode ≠ .sounding) (t : Fin 8) (s : State) : s.LeadsTo (releaseSlot mode t s) := by
  intro u v hv hlead
  rw [releaseSlot_voice] at hv
  split at hv
  · next hu =>
    subst hu
    obtain ⟨w, hw, rfl⟩ := Option.map_eq_some_iff.1 hv
    split at hlead
    · simp [Voice.sounding, hmode] at hlead
    · exact ⟨w, hw, hlead⟩
  · exact ⟨v, hv, hlead⟩

theorem withdraw_leadsTo (r : Fin 3) (s : State) : s.LeadsTo (withdraw r s) := by
  unfold withdraw
  split
  · exact releaseSlot_leadsTo (by decide) _ s
  · exact fun u v hv h => ⟨v, hv, h⟩

theorem silent_giveUp {s : State} (hs : s.Silent) (r : Fin 3) : (giveUp r s).Silent := by
  refine ⟨leadTag_none_of_leadsTo (withdraw_leadsTo r s) hs.1, fun q => ?_⟩
  rw [giveUp_rank]
  split
  · exact ⟨rfl, (hs.2 r).2⟩
  · exact hs.2 q

theorem plan_of_silent {s : State} (hs : s.Silent) (r : Fin 3) (start : Nat) (keep : Bool) : plan r start keep s = s :=
  plan_of_no_lead (by simp [State.leadVoice, hs.1])

theorem silent_enableChanged {s : State} (hs : s.Silent) (r : Fin 3) (before after : Bool) : (enableChanged r before after s).Silent := by
  unfold enableChanged
  split
  · exact silent_giveUp hs r
  · split
    · rw [plan_of_silent hs]; exact hs
    · exact hs

/-- In silence no rank has a claim to yield. -/
theorem checkEntry_of_silent {s : State} (hs : s.Silent) (e : MapEntry) : checkEntry e s = s := by
  refine foldl_fixed _ s allRanks fun r _ => ?_
  split
  · exact yieldRank_of_no_claim (hs.2 r).1
  · rfl

theorem silent_releaseAll (s : State) : (releaseAll s).Silent := by
  obtain ⟨⟨hslots, hranks, -⟩, -⟩ := releaseAll_releasedTo s
  refine ⟨leadTag_eq_none_iff.2 fun u v hv ⟨_, hsound⟩ => ?_, fun r => ⟨(hranks r).2.1, (hranks r).2.2.2.2⟩⟩
  obtain ⟨-, hnone, hfading, hactive⟩ := hslots u
  cases hw : s.voice u with
  | none => rw [hnone hw] at hv; cases hv
  | some w =>
    cases hr : w.releasing with
    | true =>
      rw [hfading w hw hr] at hv
      obtain rfl := Option.some.inj hv
      simp only [Voice.sounding, decide_eq_true_eq] at hsound
      simp [Voice.releasing, hsound] at hr
    | false =>
      rw [(hactive w hw hr).1] at hv
      obtain rfl := Option.some.inj hv
      simp [Voice.sounding] at hsound

theorem stepGains_leadsTo (s : State) : s.LeadsTo (stepGains s) := by
  intro u v hv hlead
  rw [stepGains, voice_congr (loadPending_slots _), State.voice, slot_mapSlots] at hv
  obtain ⟨w, hw, o, ⟨rfl, -⟩ | ⟨-, m, rfl, hrel⟩⟩ := gainStep_voice hv
  · exact ⟨w, hw, hlead⟩
  · obtain ⟨-, hsound⟩ := hlead
    simp only [Voice.sounding, decide_eq_true_eq] at hsound
    simp [Voice.releasing, hsound] at hrel

theorem mapVoices_leadsTo {f : Voice → Voice} (hf : ∀ v, (f v).role = v.role ∧ (f v).state = v.state) (s : State) :
    s.LeadsTo (mapVoices f s) := by
  intro u v hv hlead
  rw [voice_mapVoices, Option.map_eq_some_iff] at hv
  obtain ⟨w, hw, rfl⟩ := hv
  rw [(hf w).1, Voice.sounding, (hf w).2] at hlead
  exact ⟨w, hw, hlead⟩

theorem stepGains_harmony (s : State) : (stepGains s).harmony = s.harmony := loadPending_harmony _

theorem Move.keeps_silence {s t : State} (h : Move s t) (hranks : s.RanksOk)
    (hs : s.breath.articulation ≠ .sounding → s.Silent) : t.breath.articulation ≠ .sounding → t.Silent := by
  cases h with
  | breath x hx => exact fun h => hs fun hsound => h (hx.2 hsound)
  | release x => exact fun _ => silent_releaseAll _
  | lead n =>
    rw [(voiceWork_deliverLeadChange _).breath]
    intro h
    rw [deliverLeadChange_of_no_lead (.inl h)]
    exact hs h
  | start x _ hx => rw [(voiceWork_leadStart _).breath]; exact fun h => absurd hx h
  | enables m l =>
    rw [(voiceWork_changeEnables (f := fun x => { x with harmony := { x.harmony with master := m, liveRanks := l } }) s).breath]
    exact fun h => changeEnables_keeps (law := State.Silent) (f := fun x => { x with harmony := { x.harmony with master := m, liveRanks := l } })
      (fun _ r b a hs => silent_enableChanged hs r b a) (hs h)
  | yields r =>
    rw [(voiceWork_yieldRank r s).breath]
    intro h
    rw [yieldRank_of_no_claim ((hs h).2 r).1]
    exact hs h
  | confirm r hstage =>
    rw [(voiceWork_confirm r s).breath]
    intro h
    have hclaim := (hranks.1 r).1.1 ((hs h).2 r).1
    obtain hi | he := hclaim <;> obtain hw | hl := hstage <;> simp_all
  | rank r k hkeep =>
    intro h
    refine ⟨(hs h).1, fun q => ?_⟩
    rw [rank_setRank]
    split
    · rw [hkeep.1, hkeep.2.1]; exact (hs h).2 r
    · exact (hs h).2 q
  | gains =>
    rw [(voiceWork_stepGains s).breath]
    exact fun h => silent_congr (stepGains_leadsTo s) (rank_congr (stepGains_harmony s)) (hs h)
  | glide => exact fun h => silent_congr (s := s) (mapVoices_leadsTo (f := s.glide) (fun v => ⟨rfl, rfl⟩) s) (fun _ => rfl) (hs h)
  | tune => exact fun h => silent_congr (s := s) (mapVoices_leadsTo (f := s.tune) (fun v => ⟨rfl, rfl⟩) s) (fun _ => rfl) (hs h)
  | slots x hx => exact fun h => silent_congr (fun u v hv hl => ⟨v, (hx u).symm.trans hv, hl⟩) (fun _ => rfl) (hs h)
  | map m new =>
    rw [(voiceWork_checkEntries new { s with map := m }).breath]
    intro h
    have hsilent : ({ s with map := m } : State).Silent := hs h
    rw [foldl_fixed (fun x e => checkEntry e x) { s with map := m } new fun e _ => checkEntry_of_silent hsilent e]
    exact hsilent
  | bank b => cases b <;> exact hs
  | reload =>
    refine fun _ => ⟨leadTag_eq_none_iff.2 fun t v hv => ?_, (harmonyOk_reset.2.2 nofun).2⟩
    rw [voice_reloadPart] at hv; cases hv
  | sensor | resolver | detectors | selector | pitch | key | audio | panel | line | defaultRead | loadEnd => exact hs

theorem Move.keeps_harmonyOk {s t : State} (h : Move s t) (hs : s.HarmonyOk) : t.HarmonyOk := by
  have hranks : s.RanksOk := ⟨hs.1, hs.2.1⟩
  obtain ⟨hrank, hnumber⟩ := h.keeps_ranksOk hranks
  exact ⟨hrank, hnumber, h.keeps_silence hranks hs.2.2⟩

/-- Settles O56: the records by what each piece of the ranks' work leaves of them, and silence by what ends a note. -/
theorem stepKeepsHarmony : Obligations.StepKeepsHarmony := fun _ _ hs h =>
  step_keeps (law := State.HarmonyOk) (fun _ _ h => h) harmonyOk_reset (fun _ _ _ h => h)
    (fun _ _ _ hm => hm.keeps_harmonyOk) hs h

end Sys2Proof.Machine

/-!
The law of the Voice Table with the ranks (R51, R95, R97, R101, R112). Between the steps of a shared operation it holds but for ranks
whose claim is just abandoned, ranks whose enable has just ended, and entries that have just been placed: `State.Tied` names these three.
-/

namespace Sys2Proof.Machine

/-! ### The bank of the lead, and the enables -/

/-- The bank of a slot that is a SOUNDING lead. -/
def State.leadBank (s : State) (u : Fin 8) : Option BankId :=
  (s.voice u).bind fun v => if v.role = .lead ∧ v.state = .sounding then some v.bank else none

theorem leadVoice_bank (s : State) : s.leadVoice.map Voice.bank = allEight.findSome? s.leadBank := by
  have hlist : ∀ l : List (Fin 8), (l.find? fun t =>
      match s.voice t with
      | some v => decide (v.role = .lead) && v.sounding
      | none => false).bind (fun t => (s.voice t).map Voice.bank) = l.findSome? s.leadBank := by
    intro l
    induction l with
    | nil => rfl
    | cons t l ih =>
      rw [List.find?_cons, List.findSome?_cons]
      cases hv : s.voice t with
      | none => simpa [State.leadBank, hv] using ih
      | some v =>
        by_cases h : v.role = .lead ∧ v.state = .sounding
        · simp [State.leadBank, hv, h, Voice.sounding]
        · have hfalse : (decide (v.role = .lead) && v.sounding) = false := by simpa [Voice.sounding] using h
          simpa [State.leadBank, hv, h, hfalse] using ih
  rw [← hlist allEight]
  unfold State.leadVoice State.leadTag
  cases List.find? _ allEight <;> rfl

theorem enabled_eq (s : State) (r : Fin 3) : s.enabled r = (s.harmony.master && s.harmony.liveRanks.getLsbD r.val &&
    (allEight.findSome? s.leadBank).all fun b => (s.programOfBank b).rankSet.getLsbD r.val) := by
  rw [← leadVoice_bank]
  unfold State.enabled
  cases s.leadVoice <;> rfl

/-- The settings, the lead's bank and its program stand. -/
structure State.SameEnables (s t : State) : Prop where
  master : t.harmony.master = s.harmony.master
  liveRanks : t.harmony.liveRanks = s.harmony.liveRanks
  leadBank : ∀ u, t.leadBank u = s.leadBank u
  program : ∀ u b, s.leadBank u = some b → t.programOfBank b = s.programOfBank b

theorem State.SameEnables.refl (s : State) : s.SameEnables s := ⟨rfl, rfl, fun _ => rfl, fun _ _ _ => rfl⟩

theorem State.SameEnables.trans {s t u : State} (h : s.SameEnables t) (k : t.SameEnables u) : s.SameEnables u :=
  ⟨k.master.trans h.master, k.liveRanks.trans h.liveRanks, fun v => (k.leadBank v).trans (h.leadBank v), fun v b hb =>
    (k.program v b ((h.leadBank v).trans hb)).trans (h.program v b hb)⟩

theorem State.SameEnables.enabled {s t : State} (h : s.SameEnables t) (r : Fin 3) : t.enabled r = s.enabled r := by
  rw [enabled_eq, enabled_eq, h.master, h.liveRanks, show t.leadBank = s.leadBank from funext h.leadBank]
  cases hb : allEight.findSome? s.leadBank with
  | none => rfl
  | some b =>
    obtain ⟨u, -, hu⟩ := List.exists_of_findSome?_eq_some hb
    simp only [Option.all_some, h.program u b hu]

theorem State.SameEnables.leadVoice_ne_none {s t : State} (h : s.SameEnables t) (hs : s.leadVoice ≠ none) : t.leadVoice ≠ none := by
  intro ht
  have hbank := leadVoice_bank t
  rw [ht, show t.leadBank = s.leadBank from funext h.leadBank, ← leadVoice_bank, Option.map_none, eq_comm,
    Option.map_eq_none_iff] at hbank
  exact hs hbank

/-! ### The tie of voices and ranks -/

/-- A rank's claim is that of the voice in its slot (R57, R95). -/
abbrev State.ClaimTied (s : State) (r : Fin 3) : Prop :=
  (s.rank r).claim.isSome = (s.rank r).slot.isSome ∧
  ∀ t v, (s.rank r).slot = some t → s.voice t = some v →
    (s.rank r).claim.map Claim.note = some v.note ∧ (v.state = .sounding ↔ (s.rank r).stage = .sounding)

/-- The law of the voices and ranks, where some ranks may be loose (their claim just abandoned), some free (their enable just ended), and
some rank may stand on a LEAD entry it is still to be checked against. -/
structure State.Tied (s : State) (loose free : Fin 3 → Prop) (unchecked : Fin 3 → MapEntry → Prop) : Prop where
  lead : ∀ t v, s.voice t = some v → v.role = .lead → v.active = true →
    v.state = .sounding ∧ ∀ u w, s.voice u = some w → w.role = .lead → w.active = true → u = t
  named : ∀ t v r, s.voice t = some v → v.role = .harmony r → v.active = true → (s.rank r).slot = some t
  slot : ∀ r t, (s.rank r).slot = some t → ∃ v, s.voice t = some v ∧ v.role = .harmony r ∧ v.active = true
  claim : ∀ r, s.ClaimTied r ∨ (loose r ∧ (s.rank r).claim = none)
  enabled : ∀ r, (s.rank r).slot ≠ none → s.enabled r = true ∨ free r
  clear : ∀ t v r, s.voice t = some v → v.role = .harmony r → v.active = true →
    ∀ e ∈ s.map.entries, e.role = .lead → e.note = v.note → unchecked r e

/-- Nothing is loose, free or unchecked. -/
abbrev State.AllTied (s : State) : Prop := s.Tied (fun _ => False) (fun _ => False) (fun _ _ => False)

section
variable {s t : State} {loose free : Fin 3 → Prop} {unchecked : Fin 3 → MapEntry → Prop}

theorem State.Tied.mono (h : s.Tied loose free unchecked) {loose' free' : Fin 3 → Prop} {unchecked' : Fin 3 → MapEntry → Prop}
    (hl : ∀ r, loose r → loose' r) (hf : ∀ r, free r → free' r) (hu : ∀ r e, unchecked r e → unchecked' r e) :
    s.Tied loose' free' unchecked' :=
  ⟨h.lead, h.named, h.slot, fun r => (h.claim r).imp id (And.imp_left (hl r)), fun r hr => (h.enabled r hr).imp id (hf r),
    fun t v r hv hrole hact e he hlead hnote => hu r e (h.clear t v r hv hrole hact e he hlead hnote)⟩

/-- Two voices alike to the tie, which does not look at the lead's note. -/
abbrev Voice.Alike (v w : Voice) : Prop :=
  w.state = v.state ∧ w.role = v.role ∧ (v.role ≠ .lead → w.note = v.note) ∧ w.bank = v.bank

theorem Voice.active_congr {v w : Voice} (h : w.state = v.state) : w.active = v.active := by
  simp only [Voice.active, Voice.releasing, h]

/-- The active voices correspond, alike. -/
abbrev State.SameVoices (s t : State) : Prop :=
  (∀ u w, t.voice u = some w → w.active = true → ∃ v, s.voice u = some v ∧ v.Alike w) ∧
  ∀ u v, s.voice u = some v → v.active = true → ∃ w, t.voice u = some w ∧ v.Alike w

theorem active_of_sounding {v : Voice} (h : v.state = .sounding) : v.active = true := by
  simp [Voice.active, Voice.releasing, h]

theorem leadBank_eq_some {u : Fin 8} {b : BankId} : s.leadBank u = some b ↔
    ∃ v, s.voice u = some v ∧ v.role = .lead ∧ v.state = .sounding ∧ v.bank = b := by
  simp [State.leadBank, Option.bind_eq_some_iff, and_assoc]

theorem State.SameVoices.leadBank (h : s.SameVoices t) (u : Fin 8) : t.leadBank u = s.leadBank u := by
  refine Option.ext fun b => ?_
  rw [leadBank_eq_some, leadBank_eq_some]
  constructor
  · rintro ⟨w, hw, hrole, hstate, rfl⟩
    obtain ⟨v, hv, hs, hr, -, hb⟩ := h.1 u w hw (active_of_sounding hstate)
    exact ⟨v, hv, hr ▸ hrole, hs ▸ hstate, hb.symm⟩
  · rintro ⟨v, hv, hrole, hstate, rfl⟩
    obtain ⟨w, hw, hs, hr, -, hb⟩ := h.2 u v hv (active_of_sounding hstate)
    exact ⟨w, hw, hr ▸ hrole, hs ▸ hstate, hb⟩

/-- The tie looks at the active voices, the ranks' claims, slots and stages, the map's entries and the enables. -/
theorem State.Tied.congr (h : s.Tied loose free unchecked) (hvoice : s.SameVoices t)
    (hrank : ∀ r, (t.rank r).claim = (s.rank r).claim ∧ (t.rank r).slot = (s.rank r).slot ∧
      ((t.rank r).stage = .sounding ↔ (s.rank r).stage = .sounding))
    (hmap : t.map.entries = s.map.entries) (henabled : ∀ r, t.enabled r = s.enabled r) : t.Tied loose free unchecked := by
  refine ⟨fun u w hw hrole hact => ?_, fun u w r hw hrole hact => ?_, fun r u hu => ?_, fun r => ?_, fun r hr => ?_,
    fun u w r hw hrole hact => ?_⟩
  · obtain ⟨v, hv, hs, hr, -⟩ := hvoice.1 u w hw hact
    obtain ⟨hsound, honly⟩ := h.lead u v hv (hr ▸ hrole) (Voice.active_congr hs ▸ hact)
    refine ⟨hs ▸ hsound, fun u' w' hw' hrole' hact' => ?_⟩
    obtain ⟨v', hv', hs', hr', -⟩ := hvoice.1 u' w' hw' hact'
    exact honly u' v' hv' (hr' ▸ hrole') (Voice.active_congr hs' ▸ hact')
  · obtain ⟨v, hv, hs, hr, -⟩ := hvoice.1 u w hw hact
    rw [(hrank r).2.1]
    exact h.named u v r hv (hr ▸ hrole) (Voice.active_congr hs ▸ hact)
  · rw [(hrank r).2.1] at hu
    obtain ⟨v, hv, hrole, hact⟩ := h.slot r u hu
    obtain ⟨w, hw, hs, hr, -⟩ := hvoice.2 u v hv hact
    exact ⟨w, hw, hr ▸ hrole, Voice.active_congr hs ▸ hact⟩
  · obtain ⟨hclaim, hslot, hstage⟩ := hrank r
    rw [State.ClaimTied, hclaim, hslot, hstage]
    refine (h.claim r).imp (fun ⟨hsome, htied⟩ => ⟨hsome, fun u w hu hw => ?_⟩) id
    obtain ⟨v, hv, hrole, hact⟩ := h.slot r u hu
    obtain ⟨w', hw', hs, -, hn, -⟩ := hvoice.2 u v hv hact
    obtain rfl := Option.some.inj (hw.symm.trans hw')
    rw [hn (by simp [hrole]), hs]
    exact htied u v hu hv
  · rw [(hrank r).2.1] at hr
    rw [henabled]
    exact h.enabled r hr
  · obtain ⟨v, hv, hs, hr, hn, -⟩ := hvoice.1 u w hw hact
    rw [hmap, hn (by simp [← hr, hrole])]
    exact h.clear u v r hv (hr ▸ hrole) (Voice.active_congr hs ▸ hact)

end

/-- The law of voices is that of banks and ranks and the tie; a voice that is not RELEASING needs a note that sounds (R51). -/
theorem voicesOk_iff (s : State) : s.VoicesOk ↔ s.BanksOk ∧ s.HarmonyOk ∧ s.AllTied := by
  constructor
  · rintro ⟨hbanks, hharmony, hlead, -, hranks, hvoices⟩
    refine ⟨hbanks, hharmony, fun t v hv hrole hact => ?_, fun t v r hv hrole hact => (hvoices t v hv r hrole hact).1, fun r t ht => ?_,
      fun r => .inl ⟨(hranks r).1, fun t v ht hv => ?_⟩, fun r hr => ?_,
      fun t v r hv hrole hact e he hl hn => (hvoices t v hv r hrole hact).2 e he hl hn⟩
    · obtain ⟨hsound, honly⟩ := hlead t v hv hrole hact
      exact ⟨hsound, fun u w hw hrole hact => honly u w hw hrole hact⟩
    · obtain ⟨⟨v, hv, hrole, hact, -⟩, -⟩ := (hranks r).2 t ht
      exact ⟨v, hv, hrole, hact⟩
    · obtain ⟨⟨w, hw, -, -, hnote, hstate⟩, -⟩ := (hranks r).2 t ht
      obtain rfl := Option.some.inj (hv.symm.trans hw)
      exact ⟨hnote, hstate⟩
    · obtain ⟨t, ht⟩ := Option.ne_none_iff_exists'.1 hr
      exact .inl ((hranks r).2 t ht).2
  · rintro ⟨hbanks, hharmony, htied⟩
    have hclaim : ∀ r, s.ClaimTied r := fun r => (htied.claim r).resolve_right nofun
    refine ⟨hbanks, hharmony, fun t v hv hrole hact => ?_, fun hart t v hv => ?_, fun r => ⟨(hclaim r).1, fun t ht => ?_⟩,
      fun t v hv r hrole hact => ⟨htied.named t v r hv hrole hact, fun e he hl hn => htied.clear t v r hv hrole hact e he hl hn⟩⟩
    · obtain ⟨hsound, honly⟩ := htied.lead t v hv hrole hact
      exact ⟨hsound, fun u w hw hrole hact => honly u w hw hrole hact⟩
    · obtain ⟨hnolead, hnoclaim⟩ := hharmony.2.2 hart
      by_contra hrel
      have hact : v.active = true := by simpa [Voice.active] using hrel
      cases hrole : v.role with
      | lead =>
        have hsound := (htied.lead t v hv hrole hact).1
        exact leadTag_eq_none_iff.1 hnolead t v hv ⟨hrole, by simp [Voice.sounding, hsound]⟩
      | harmony r =>
        have hsome := (hclaim r).1
        rw [(hnoclaim r).1, htied.named t v r hv hrole hact] at hsome
        cases hsome
    · obtain ⟨v, hv, hrole, hact⟩ := htied.slot r t ht
      obtain ⟨hnote, hstate⟩ := (hclaim r).2 t v ht hv
      exact ⟨⟨v, hv, hrole, hact, hnote, hstate⟩, (htied.enabled r (by rw [Option.mem_def.1 ht]; nofun)).resolve_right id⟩

/-! ### At most four voices -/

/-- The voices that are not RELEASING stand in slots of different owners: the lead, and each rank. -/
theorem active_length_le {s : State} {loose free : Fin 3 → Prop} {unchecked : Fin 3 → MapEntry → Prop}
    (h : s.Tied loose free unchecked) : (allEight.filter fun u => (s.voice u).any Voice.active).length ≤ 4 := by
  -- the owner of a slot: none for the lead, a rank for its own
  let owner : Fin 8 → Option (Fin 3) := fun u =>
    match (s.voice u).map Voice.role with
    | some (.harmony r) => some r
    | _ => none
  have hnodup : (allEight.filter fun u => (s.voice u).any Voice.active).Nodup := List.Nodup.filter _ (by decide)
  rw [← List.toFinset_card_of_nodup hnodup]
  refine (Finset.card_le_card_of_injOn owner (t := Finset.univ) (fun _ _ => Finset.mem_univ _) ?_).trans (by decide)
  intro t ht u hu howner
  simp only [List.coe_toFinset, List.mem_filter, Set.mem_ofPred_eq, Option.any_eq_true] at ht hu
  obtain ⟨-, v, hv, hact⟩ := ht
  obtain ⟨-, w, hw, hact'⟩ := hu
  simp only [owner, hv, hw, Option.map_some] at howner
  cases hrole : v.role with
  | lead =>
    cases hrole' : w.role with
    | lead => exact ((h.lead t v hv hrole hact).2 u w hw hrole' hact').symm
    | harmony r => simp [hrole, hrole'] at howner
  | harmony r =>
    cases hrole' : w.role with
    | lead => simp [hrole, hrole'] at howner
    | harmony r' =>
      simp only [hrole, hrole', Option.some.injEq] at howner
      subst howner
      exact Option.some.inj ((h.named t v r hv hrole hact).symm.trans (h.named u w r hw hrole' hact'))

/-- With a slot that is FREE or RELEASING an allocation finds one (R52). -/
theorem allocationTag_isSome {s : State} (h : (allEight.filter fun u => (s.voice u).any Voice.active).length ≤ 4) :
    s.allocationTag.isSome = true := by
  unfold State.allocationTag
  cases hfree : s.freeTag with
  | some t => rfl
  | none =>
    cases hsteal : s.stealTag with
    | some t => rfl
    | none =>
      have hall : (allEight.filter fun u => (s.voice u).any Voice.active) = allEight := by
        rw [List.filter_eq_self]
        intro u _
        obtain ⟨v, hv⟩ := Option.ne_none_iff_exists'.1 (freeTag_none hfree u)
        have := stealTag_none hsteal u v hv
        simp [hv, Voice.active, this]
      rw [hall] at h
      exact absurd h (by decide)

end Sys2Proof.Machine

/-!
What the ranks' work leaves of the tie of voices and ranks: a slot given up, a slot placed, and from these plans, yields, confirmations,
releases and the lead's changes (R57, R58, R98, R102, R103, R107, R109, R112, R116).
-/

namespace Sys2Proof.Machine

section
variable {s t : State} {loose free : Fin 3 → Prop} {unchecked : Fin 3 → MapEntry → Prop} {r : Fin 3}

/-! ### A slot given up -/

theorem not_sounding_of_not_active {v : Voice} (h : v.active = false) : v.state ≠ .sounding := fun hs => by
  rw [active_of_sounding hs] at h; cases h

theorem State.Tied.rankTag (h : s.Tied loose free unchecked) (r : Fin 3) : s.rankTag r = (s.rank r).slot := by
  unfold State.rankTag
  cases hslot : (s.rank r).slot with
  | none => rfl
  | some u =>
    obtain ⟨v, hv, -, hact⟩ := h.slot r u hslot
    simp [hv, hact]

/-- A rank without its claim and slot, whose voice is no longer active. -/
theorem State.Tied.released (h : s.Tied loose free unchecked)
    (hslot : ∀ u, (s.rank r).slot = some u → ∀ w, t.voice u = some w → w.active = false)
    (hvoice : ∀ u, (s.rank r).slot ≠ some u → t.voice u = s.voice u)
    (hrank : ∀ q, q ≠ r → t.rank q = s.rank q) (hclaim : (t.rank r).claim = none) (hnone : (t.rank r).slot = none)
    (hmap : t.map.entries = s.map.entries) (hmaster : t.harmony.master = s.harmony.master)
    (hlive : t.harmony.liveRanks = s.harmony.liveRanks) (hbanks : t.banks = s.banks) :
    s.SameEnables t ∧ t.Tied (fun q => q ≠ r ∧ loose q) (fun q => q ≠ r ∧ free q) (fun q e => q ≠ r ∧ unchecked q e) := by
  have hstood : ∀ u w, t.voice u = some w → w.active = true → (s.rank r).slot ≠ some u ∧ s.voice u = some w := fun u w hw hact =>
    have hne : (s.rank r).slot ≠ some u := fun hu => by simp [hslot u hu w hw] at hact
    ⟨hne, (hvoice u hne).symm.trans hw⟩
  have henables : s.SameEnables t := by
    refine ⟨hmaster, hlive, fun u => ?_, fun u b _ => by simp only [State.programOfBank, bank_congr hbanks]⟩
    refine Option.ext fun b => ?_
    rw [leadBank_eq_some, leadBank_eq_some]
    constructor
    · rintro ⟨w, hw, hrest⟩
      exact ⟨w, (hstood u w hw (active_of_sounding hrest.2.1)).2, hrest⟩
    · rintro ⟨v, hv, hrole, hrest⟩
      refine ⟨v, (hvoice u fun hu => ?_).trans hv, hrole, hrest⟩
      obtain ⟨w, hw, hharmony, -⟩ := h.slot r u hu
      obtain rfl := Option.some.inj (hv.symm.trans hw)
      rw [hrole] at hharmony; cases hharmony
  have howner : ∀ u v q, t.voice u = some v → v.role = .harmony q → v.active = true → q ≠ r := by
    rintro u v q hv hrole hact rfl
    obtain ⟨hne, hv⟩ := hstood u v hv hact
    exact hne (h.named u v q hv hrole hact)
  refine ⟨henables, fun u v hv hrole hact => ?_, fun u v q hv hrole hact => ?_, fun q u hu => ?_, fun q => ?_, fun q hq => ?_,
    fun u v q hv hrole hact => ?_⟩
  · obtain ⟨hsound, honly⟩ := h.lead u v (hstood u v hv hact).2 hrole hact
    exact ⟨hsound, fun u' w hw hrole' hact' => honly u' w (hstood u' w hw hact').2 hrole' hact'⟩
  · rw [hrank q (howner u v q hv hrole hact)]
    exact h.named u v q (hstood u v hv hact).2 hrole hact
  · have hne : q ≠ r := by rintro rfl; rw [hnone] at hu; cases hu
    rw [hrank q hne] at hu
    obtain ⟨v, hv, hrole, hact⟩ := h.slot q u hu
    refine ⟨v, (hvoice u fun hu' => hne ?_).trans hv, hrole, hact⟩
    obtain ⟨w, hw, hrole', -⟩ := h.slot r u hu'
    obtain rfl := Option.some.inj (hv.symm.trans hw)
    exact Role.harmony.inj (hrole.symm.trans hrole')
  · by_cases hne : q = r
    · subst hne
      exact .inl ⟨by rw [hclaim, hnone]; rfl, by rw [hnone]; nofun⟩
    · rw [State.ClaimTied, hrank q hne]
      refine (h.claim q).imp (fun ⟨hsome, htied⟩ => ⟨hsome, fun u v hu hv => htied u v hu ?_⟩) fun ⟨hl, hc⟩ => ⟨⟨hne, hl⟩, hc⟩
      refine (hvoice u fun hu' => hne ?_).symm.trans hv
      obtain ⟨w, hw, hrole, -⟩ := h.slot q u hu
      obtain ⟨w', hw', hrole', -⟩ := h.slot r u hu'
      obtain rfl := Option.some.inj (hw.symm.trans hw')
      exact Role.harmony.inj (hrole.symm.trans hrole')
  · have hne : q ≠ r := by rintro rfl; exact hq hnone
    rw [hrank q hne] at hq
    rw [henables.enabled]
    exact (h.enabled q hq).imp id fun hf => ⟨hne, hf⟩
  · rw [hmap]
    exact fun e he hl hn => ⟨howner u v q hv hrole hact, h.clear u v q (hstood u v hv hact).2 hrole hact e he hl hn⟩

theorem State.Tied.withdraw_voice (h : s.Tied loose free unchecked) (r : Fin 3) (u : Fin 8) :
    ((s.rank r).slot = some u → ∀ w, (withdraw r s).voice u = some w → w.active = false) ∧
    ((s.rank r).slot ≠ some u → (withdraw r s).voice u = s.voice u) := by
  have hvoice : (withdraw r s).voice u = if (s.rank r).slot = some u then
      (s.voice u).map fun v => if v.active then { v with state := .releasingWithdraw none } else v else s.voice u := by
    unfold withdraw
    rw [h.rankTag]
    cases (s.rank r).slot with
    | none => rfl
    | some v =>
      refine (releaseSlot_voice _ _ _ s).trans ?_
      by_cases huv : u = v
      · simp [huv]
      · simp [huv, Ne.symm huv]
  rw [hvoice]
  refine ⟨fun hu w hw => ?_, fun hu => if_neg hu⟩
  rw [if_pos hu, Option.map_eq_some_iff] at hw
  obtain ⟨v, -, rfl⟩ := hw
  cases hact : v.active <;> simp [Voice.active, Voice.releasing] at hact ⊢
  exact hact

theorem withdraw_banks (r : Fin 3) (s : State) : (withdraw r s).banks = s.banks := by
  unfold withdraw
  split
  · exact releaseSlot_banks _ _ s
  · rfl

theorem State.Tied.giveUp (h : s.Tied loose free unchecked) (r : Fin 3) : s.SameEnables (giveUp r s) ∧
    (giveUp r s).Tied (fun q => q ≠ r ∧ loose q) (fun q => q ≠ r ∧ free q) (fun q e => q ≠ r ∧ unchecked q e) := by
  have hwork := voiceWork_giveUp r s
  refine h.released (fun u => (h.withdraw_voice r u).1) (fun u => (h.withdraw_voice r u).2)
    (fun q hq => by rw [giveUp_rank, if_neg hq]) ?_ ?_ (congrArg SectionMap.entries hwork.map) hwork.master hwork.liveRanks
    (withdraw_banks r s) <;> rw [giveUp_rank, if_pos rfl]

theorem State.Tied.exhaust (h : s.Tied loose free unchecked) (r : Fin 3) : s.SameEnables (exhaust r s) ∧
    (exhaust r s).Tied (fun q => q ≠ r ∧ loose q) (fun q => q ≠ r ∧ free q) (fun q e => q ≠ r ∧ unchecked q e) := by
  have hwork := voiceWork_exhaust r s
  refine h.released (fun u => (h.withdraw_voice r u).1) (fun u => (h.withdraw_voice r u).2)
    (fun q hq => by rw [exhaust_rank, if_neg hq]) ?_ ?_ (congrArg SectionMap.entries hwork.map) hwork.master hwork.liveRanks
    (withdraw_banks r s) <;> rw [exhaust_rank, if_pos rfl]

/-! ### A slot placed -/

/-- A rank's voice in its own slot or one without an active voice. -/
theorem State.Tied.placed {u : Fin 8} {w : Voice} (h : s.Tied loose free unchecked)
    (hfree : ∀ v, s.voice u = some v → v.active = true → v.role = .harmony r)
    (hown : (s.rank r).slot = none ∨ (s.rank r).slot = some u)
    (hw : t.voice u = some w) (hrole : w.role = .harmony r) (hact : w.active = true)
    (hvoice : ∀ v, v ≠ u → t.voice v = s.voice v) (hslot : (t.rank r).slot = some u)
    (hclaim : (t.rank r).claim.map Claim.note = some w.note) (hstage : w.state = .sounding ↔ (t.rank r).stage = .sounding)
    (hrank : ∀ q, q ≠ r → t.rank q = s.rank q) (hmap : t.map.entries = s.map.entries) (henabled : s.enabled r = true ∨ free r)
    (hclear : ∀ e ∈ s.map.entries, e.role = .lead → e.note = w.note → unchecked r e)
    (hmaster : t.harmony.master = s.harmony.master) (hlive : t.harmony.liveRanks = s.harmony.liveRanks)
    (hprogram : ∀ v b, s.leadBank v = some b → t.programOfBank b = s.programOfBank b) :
    s.SameEnables t ∧ t.Tied (fun q => q ≠ r ∧ loose q) free unchecked := by
  have hnotlead : ∀ v, s.voice u = some v → v.active = true → v.role ≠ .lead := fun v hv ha hl => by
    rw [hfree v hv ha] at hl; cases hl
  have henables : s.SameEnables t := by
    refine ⟨hmaster, hlive, fun v => ?_, hprogram⟩
    by_cases hvu : v = u
    · subst hvu
      refine Option.ext fun b => ?_
      rw [leadBank_eq_some, leadBank_eq_some]
      constructor
      · rintro ⟨x, hx, hl, -⟩
        obtain rfl := Option.some.inj (hw.symm.trans hx)
        rw [hrole] at hl; cases hl
      · rintro ⟨x, hx, hl, hsound, -⟩
        exact absurd hl (hnotlead x hx (active_of_sounding hsound))
    · simp only [State.leadBank, hvoice v hvu]
  have hother : ∀ q, q ≠ r → ∀ v, (s.rank q).slot = some v → v ≠ u := by
    rintro q hq v hv rfl
    obtain ⟨x, hx, hxrole, hxact⟩ := h.slot q v hv
    exact hq (Role.harmony.inj (hxrole.symm.trans (hfree x hx hxact)))
  refine ⟨henables, fun v x hx hl ha => ?_, fun v x q hx hq ha => ?_, fun q v hv => ?_, fun q => ?_, fun q hq => ?_,
    fun v x q hx hq ha => ?_⟩
  · have hleads : ∀ v x, t.voice v = some x → x.role = .lead → s.voice v = some x := by
      intro v x hx hl
      rw [← hx]
      refine (hvoice v ?_).symm
      rintro rfl
      obtain rfl := Option.some.inj (hw.symm.trans hx)
      rw [hrole] at hl; cases hl
    obtain ⟨hsound, honly⟩ := h.lead v x (hleads v x hx hl) hl ha
    exact ⟨hsound, fun v' x' hx' hl' ha' => honly v' x' (hleads v' x' hx' hl') hl' ha'⟩
  · by_cases hvu : v = u
    · subst hvu
      obtain rfl := Option.some.inj (hw.symm.trans hx)
      obtain rfl := Role.harmony.inj (hrole.symm.trans hq)
      exact hslot
    · rw [hvoice v hvu] at hx
      have hnamed := h.named v x q hx hq ha
      have hqr : q ≠ r := by
        rintro rfl
        obtain hn | hn := hown <;> rw [hn] at hnamed
        · cases hnamed
        · exact hvu (Option.some.inj hnamed).symm
      rw [hrank q hqr]
      exact hnamed
  · by_cases hqr : q = r
    · subst hqr
      obtain rfl := Option.some.inj (hslot.symm.trans hv)
      exact ⟨w, hw, hrole, hact⟩
    · rw [hrank q hqr] at hv
      obtain ⟨x, hx, hrest⟩ := h.slot q v hv
      exact ⟨x, (hvoice v (hother q hqr v hv)).trans hx, hrest⟩
  · by_cases hqr : q = r
    · subst hqr
      refine .inl ⟨?_, fun v x hv hx => ?_⟩
      · rw [hslot]
        cases hc : (t.rank q).claim with
        | none => rw [hc] at hclaim; cases hclaim
        | some c => rfl
      · obtain rfl := Option.some.inj (hslot.symm.trans hv)
        obtain rfl := Option.some.inj (hw.symm.trans hx)
        exact ⟨hclaim, hstage⟩
    · rw [State.ClaimTied, hrank q hqr]
      refine (h.claim q).imp (fun ⟨hsome, htied⟩ => ⟨hsome, fun v x hv hx => htied v x hv ?_⟩) fun ⟨hl, hc⟩ => ⟨⟨hqr, hl⟩, hc⟩
      rwa [← hvoice v (hother q hqr v hv)]
  · rw [henables.enabled]
    by_cases hqr : q = r
    · exact hqr ▸ henabled
    · rw [hrank q hqr] at hq
      exact h.enabled q hq
  · rw [hmap]
    by_cases hvu : v = u
    · subst hvu
      obtain rfl := Option.some.inj (hw.symm.trans hx)
      obtain rfl := Role.harmony.inj (hrole.symm.trans hq)
      exact hclear
    · exact h.clear v x q ((hvoice v hvu).symm.trans hx) hq ha

end

end Sys2Proof.Machine

/-!
Claims, plans and yields on the tie of voices and ranks (R98, R101, R102, R109, R112, R116).
-/

namespace Sys2Proof.Machine

section
variable {s t : State} {loose free : Fin 3 → Prop} {unchecked : Fin 3 → MapEntry → Prop} {r : Fin 3}

/-! ### Banks that a voice still references -/

theorem loadUnreferenced_programOfBank {b c : BankId} (h : s.referenced c = true) :
    (loadUnreferenced b s).programOfBank c = s.programOfBank c := by
  have hbank : (loadUnreferenced b s).bank c = s.bank c := by
    rw [loadUnreferenced_bank, if_neg]
    rintro ⟨rfl, hn⟩
    rw [h] at hn; cases hn
  simp only [State.programOfBank, hbank]

theorem loadPending_programOfBank {c : BankId} (h : s.referenced c = true) : (loadPending s).programOfBank c = s.programOfBank c := by
  rw [loadPending, loadUnreferenced_programOfBank (by rwa [loadUnreferenced_referenced]), loadUnreferenced_programOfBank h]

/-! ### An allocation -/

/-- What a slot request of a rank leaves (R52, R57, R102): the rank's voice, PROVISIONAL on the note, in the rank's own slot or one without
an active voice; all else that the tie looks at stands. -/
structure State.Requested (s t : State) (r : Fin 3) (note : Nat) (u : Fin 8) : Prop where
  free : ∀ v, s.voice u = some v → v.active = true → v.role = .harmony r
  own : (s.rank r).slot = none ∨ (s.rank r).slot = some u
  voice : ∃ w, t.voice u = some w ∧ w.role = .harmony r ∧ w.state = .provisional ∧ w.note = note
  others : ∀ v, v ≠ u → t.voice v = s.voice v
  program : ∀ v b, s.leadBank v = some b → t.programOfBank b = s.programOfBank b

theorem voice_of_leadBank {u : Fin 8} {b : BankId} (h : s.leadBank u = some b) :
    ∃ v, s.voice u = some v ∧ v.role = .lead ∧ v.active = true ∧ v.bank = b := by
  obtain ⟨v, hv, hrole, hsound, hb⟩ := leadBank_eq_some.1 h
  exact ⟨v, hv, hrole, active_of_sounding hsound, hb⟩

/-- A slot that an allocation takes has no active voice. -/
theorem not_active_of_takes {u : Fin 8} (h : s.Takes u) : ∀ v, s.voice u = some v → v.active = false := by
  intro v hv
  obtain ⟨hnone, -⟩ | ⟨-, ⟨w, hw, hrel⟩, -⟩ := h
  · rw [hv] at hnone; cases hnone
  · obtain rfl := Option.some.inj (hv.symm.trans hw)
    simp [Voice.active, hrel]

theorem voice_loadPending_start {u v : Fin 8} {w : Voice} :
    (loadPending (setSlot u ((s.slot u).start w) s)).voice v = if v = u then some w else s.voice v := by
  rw [voice_congr (loadPending_slots _), voice_setSlot]
  rfl

/-- The banks of voices in other slots keep their programs. -/
theorem program_loadPending_start {u v : Fin 8} {w x : Voice} (hv : s.voice v = some x) (h : v ≠ u) :
    (loadPending (setSlot u ((s.slot u).start w) s)).programOfBank x.bank = s.programOfBank x.bank := by
  refine loadPending_programOfBank (referenced_of_voice (t := v) ?_)
  rw [voice_setSlot, if_neg h, hv]

theorem State.Tied.requested (h : s.Tied loose free unchecked) (r : Fin 3) (note : Nat) (b : BankId) {keep : Bool}
    (hslot : keep = false → (s.rank r).slot = none) :
    ∃ u t, requestSlot r note b keep s = (some u, t) ∧ s.Requested t r note u := by
  unfold requestSlot
  split
  · next u hu =>
    split at hu
    · rw [h.rankTag] at hu
      obtain ⟨v, hv, hrole, hact⟩ := h.slot r u hu
      have hvoice : ∀ x, (retarget u note s).voice x =
          if x = u then some { v with state := .provisional, note := note, baseTarget := 1000 * note } else s.voice x := by
        intro x
        simp only [retarget, hv, voice_setVoice]
      have hbanks : (retarget u note s).banks = s.banks := by
        simp only [retarget, hv, setVoice_banks]
      refine ⟨u, _, rfl, fun x hx _ => ?_, .inr hu, ⟨_, (hvoice u).trans (if_pos rfl), hrole, rfl, rfl⟩,
        fun x hx => (hvoice x).trans (if_neg hx), fun _ c _ => ?_⟩
      · obtain rfl := Option.some.inj (hv.symm.trans hx)
        exact hrole
      · simp only [State.programOfBank, bank_congr hbanks]
    · cases hu
  · next hu =>
    have hnone : (s.rank r).slot = none := by
      cases keep with
      | false => exact hslot rfl
      | true => rw [← h.rankTag]; exact hu
    obtain ⟨u, hu⟩ := Option.isSome_iff_exists.1 (allocationTag_isSome (active_length_le h))
    have hinactive := not_active_of_takes (takes_of_allocationTag hu)
    refine ⟨u, _, by simp only [allocate, hu], fun v hv hact => ?_, .inl hnone, ⟨s.newVoice (.harmony r) note b none, voice_loadPending_start.trans (if_pos rfl), rfl, rfl, rfl⟩,
      fun v hv => voice_loadPending_start.trans (if_neg hv), fun v c hc => ?_⟩
    · rw [hinactive v hv] at hact; cases hact
    · obtain ⟨x, hx, -, hact, rfl⟩ := voice_of_leadBank hc
      refine program_loadPending_start hx ?_
      rintro rfl
      rw [hinactive x hx] at hact; cases hact

theorem makeClaim_of_requestSlot {pos note : Nat} {b : BankId} {keep : Bool} {u : Fin 8} {x : State}
    (h : requestSlot r note b keep { s with harmony := { s.harmony with counter := s.claimNumber r + 1 } } = (some u, x)) :
    (∀ v, (makeClaim r pos note b keep s).voice v = x.voice v) ∧ (makeClaim r pos note b keep s).banks = x.banks ∧
      ((makeClaim r pos note b keep s).rank r).slot = some u := by
  unfold makeClaim
  dsimp only
  rw [h]
  dsimp only
  split
  · exact ⟨fun _ => rfl, rfl, congrArg Rank.slot (rank_setRank_same x r _)⟩
  · exact ⟨fun _ => rfl, rfl, congrArg Rank.slot (rank_setRank_same x r _)⟩

/-- A claim on a note that no LEAD entry holds (R101, R102, R112). -/
theorem State.Tied.makeClaim (h : s.Tied loose free unchecked) {pos note : Nat} {b : BankId} {keep : Bool}
    (hslot : keep = false → (s.rank r).slot = none) (henabled : s.enabled r = true) (hmap : s.mapHolds note = false) :
    s.SameEnables (makeClaim r pos note b keep s) ∧ (makeClaim r pos note b keep s).Tied (fun q => q ≠ r ∧ loose q) free unchecked := by
  have hcounter : ({ s with harmony := { s.harmony with counter := s.claimNumber r + 1 } } : State).Tied loose free unchecked :=
    ⟨h.lead, h.named, h.slot, h.claim, h.enabled, h.clear⟩
  obtain ⟨u, x, hx, hfree, hown, ⟨w, hw, hrole, hstate, hnote⟩, hothers, hprogram⟩ := hcounter.requested r note b (keep := keep) hslot
  obtain ⟨hvoice, hbanks, hu⟩ := makeClaim_of_requestSlot (pos := pos) hx
  obtain ⟨hclaim, hstage, -, -, -, -, hrank⟩ := makeClaim_rank r pos note b keep s
  have hwork := voiceWork_makeClaim r pos note b keep s
  refine h.placed (w := w) hfree hown ((hvoice u).trans hw) hrole (by simp [Voice.active, Voice.releasing, hstate])
    (fun v hv => (hvoice v).trans (hothers v hv)) hu ?_ ?_ hrank (congrArg SectionMap.entries hwork.map) (.inl henabled)
    (fun e he _ hn => ?_) hwork.master hwork.liveRanks fun v c hc => ?_
  · rw [hclaim, hnote]; rfl
  · rw [hstate, hstage]
    split <;> simp
  · simp only [State.mapHolds, List.any_eq_false, decide_eq_true_eq] at hmap
    exact absurd (hn.trans hnote) (hmap e he)
  · simp only [State.programOfBank, bank_congr hbanks]
    exact hprogram v c hc

/-! ### Plans -/

theorem plan_rank_other {q : Fin 3} (hq : q ≠ r) (start : Nat) (keep : Bool) (s : State) : (plan r start keep s).rank q = s.rank q := by
  unfold plan
  split
  · rfl
  · dsimp only
    split
    · rw [exhaust_rank, if_neg hq]
    · exact (makeClaim_rank r _ _ _ keep s).2.2.2.2.2.2 q hq

/-- A plan of an enabled rank; only where a slot is kept a lead must sound, or the slot would stay without a claim. -/
theorem State.Tied.plan (h : s.Tied loose free unchecked) {start : Nat} {keep : Bool} (henabled : s.enabled r = true)
    (hclaim : (s.rank r).claim = none) (hslot : keep = false → (s.rank r).slot = none) (hlead : keep = true → s.leadVoice ≠ none) :
    s.SameEnables (plan r start keep s) ∧ (plan r start keep s).Tied (fun q => q ≠ r ∧ loose q) free unchecked := by
  unfold Machine.plan
  split
  · next hnone =>
    have hkeep : keep = false := by
      cases hk : keep with
      | false => rfl
      | true => exact absurd hnone (hlead hk)
    refine ⟨.refl s, h.lead, h.named, h.slot, fun q => ?_, h.enabled, h.clear⟩
    by_cases hq : q = r
    · subst hq
      exact .inl ⟨by rw [hclaim, hslot hkeep]; rfl, by rw [hslot hkeep]; nofun⟩
    · exact (h.claim q).imp id fun ⟨hl, hc⟩ => ⟨⟨hq, hl⟩, hc⟩
  · dsimp only
    split
    · obtain ⟨hs, ht⟩ := h.exhaust r
      exact ⟨hs, ht.mono (fun _ => id) (fun _ => And.right) fun _ _ => And.right⟩
    · next hwalk =>
      obtain ⟨-, -, -, -, -, -, -, heligible, -⟩ := walk_some hwalk
      refine h.makeClaim hslot henabled ?_
      simp only [State.eligible, Bool.and_eq_true, Bool.not_eq_true'] at heligible
      exact heligible.1.1.2

/-- The plans of some ranks, none of which holds a claim (R100, R116). -/
theorem State.Tied.planList {keep : Bool} {l : List (Fin 3)} (hnodup : l.Nodup) (h : s.Tied (· ∈ l) (fun _ => False) unchecked)
    (hclaim : ∀ r ∈ l, (s.rank r).claim = none) (hslot : keep = false → ∀ r ∈ l, (s.rank r).slot = none)
    (hlead : keep = true → s.leadVoice ≠ none) :
    (l.foldl (fun s r => if s.enabled r then Machine.plan r 0 keep s else s) s).Tied (fun _ => False) (fun _ => False) unchecked := by
  induction l generalizing s with
  | nil => exact h.mono (fun _ hm => nomatch hm) (fun _ => id) fun _ _ => id
  | cons r l ih =>
    obtain ⟨hr, hl⟩ := List.nodup_cons.1 hnodup
    rw [List.foldl_cons]
    split
    · next henabled =>
      obtain ⟨hsame, ht⟩ := h.plan (start := 0) henabled (hclaim r List.mem_cons_self) (fun hk => hslot hk r List.mem_cons_self) hlead
      have hother : ∀ q ∈ l, (Machine.plan r 0 keep s).rank q = s.rank q := fun q hq =>
        plan_rank_other (by rintro rfl; exact hr hq) 0 keep s
      refine ih hl (ht.mono (fun q ⟨hne, hq⟩ => (List.mem_cons.1 hq).resolve_left hne) (fun _ => id) fun _ _ => id)
        (fun q hq => by rw [hother q hq]; exact hclaim q (List.mem_cons_of_mem _ hq))
        (fun hk q hq => by rw [hother q hq]; exact hslot hk q (List.mem_cons_of_mem _ hq))
        fun hk => hsame.leadVoice_ne_none (hlead hk)
    · next henabled =>
      have hnone : (s.rank r).slot = none := by
        by_contra hne
        exact (h.enabled r hne).elim henabled id
      have ht : s.Tied (· ∈ l) (fun _ => False) unchecked := by
        refine ⟨h.lead, h.named, h.slot, fun q => ?_, h.enabled, h.clear⟩
        by_cases hq : q = r
        · subst hq
          exact .inl ⟨by rw [hclaim q List.mem_cons_self, hnone]; rfl, by rw [hnone]; nofun⟩
        · exact (h.claim q).imp id fun ⟨hm, hc⟩ => ⟨(List.mem_cons.1 hm).resolve_left hq, hc⟩
      exact ih hl ht (fun q hq => hclaim q (List.mem_cons_of_mem _ hq)) (fun hk q hq => hslot hk q (List.mem_cons_of_mem _ hq)) hlead

/-! ### Yields -/

/-- A yield: the rank stands on no entry any more (R109, R112). -/
theorem State.Tied.yieldRank (h : s.Tied (fun _ => False) (fun _ => False) unchecked) (r : Fin 3) :
    (yieldRank r s).Tied (fun _ => False) (fun _ => False) (fun q e => q ≠ r ∧ unchecked q e) := by
  have hclaimed := (h.claim r).resolve_right fun hn => hn.1
  unfold Machine.yieldRank
  split
  · next hclaim =>
    have hnone : (s.rank r).slot = none := by
      have hsome := hclaimed.1
      rw [hclaim] at hsome
      exact Option.isSome_eq_false_iff.1 hsome.symm |> Option.isNone_iff_eq_none.1
    refine ⟨h.lead, h.named, h.slot, h.claim, h.enabled, fun t v q hv hrole hact e he hl hn => ⟨?_, h.clear t v q hv hrole hact e he hl hn⟩⟩
    rintro rfl
    have := h.named t v q hv hrole hact
    rw [hnone] at this; cases this
  · next c hclaim =>
    dsimp only
    have henabled : s.enabled r = true := by
      refine (h.enabled r fun hnone => ?_).resolve_right id
      have hsome := hclaimed.1
      rw [hclaim, hnone] at hsome
      cases hsome
    obtain ⟨hsame, ht⟩ := h.giveUp r
    have hrefuse : (setRank r { (Machine.giveUp r s).rank r with refused := refuse c.note ((Machine.giveUp r s).rank r).refused }
        (Machine.giveUp r s)).Tied (fun _ => False) (fun _ => False) (fun q e => q ≠ r ∧ unchecked q e) := by
      refine (ht.mono (fun _ => And.right) (fun _ => And.right) fun _ _ => id).congr ⟨fun u w hw _ => ⟨w, hw, rfl, rfl, fun _ => rfl, rfl⟩,
        fun u v hv _ => ⟨v, hv, rfl, rfl, fun _ => rfl, rfl⟩⟩ (fun q => ?_) rfl fun _ => rfl
      rw [rank_setRank]
      split
      · next hq => subst hq; exact ⟨rfl, rfl, Iff.rfl⟩
      · exact ⟨rfl, rfl, Iff.rfl⟩
    refine ((hrefuse.plan (start := (s.rank r).position + 1) (keep := false) (r := r) ?_ ?_ ?_ nofun).2).mono (fun _ => And.right) (fun _ => id) fun _ _ => id
    · exact (hsame.enabled r).trans henabled
    · rw [rank_setRank_same, giveUp_rank, if_pos rfl]
    · intro _
      rw [rank_setRank_same, giveUp_rank, if_pos rfl]

end

end Sys2Proof.Machine

/-!
The law of the Voice Table with the ranks through every move (R51, R95, R112).
-/

namespace Sys2Proof.Machine

section
variable {s t : State}

/-- The tie does not look at the blocks that stand. -/
theorem State.Tied.of_same {loose free : Fin 3 → Prop} {unchecked : Fin 3 → MapEntry → Prop} (h : s.Tied loose free unchecked)
    (hvoice : ∀ u, t.voice u = s.voice u) (hrank : ∀ r, t.rank r = s.rank r) (hmap : t.map.entries = s.map.entries)
    (henabled : ∀ r, t.enabled r = s.enabled r) : t.Tied loose free unchecked :=
  h.congr ⟨fun u w hw _ => ⟨w, (hvoice u).symm.trans hw, rfl, rfl, fun _ => rfl, rfl⟩,
    fun u v hv _ => ⟨v, (hvoice u).trans hv, rfl, rfl, fun _ => rfl, rfl⟩⟩ (fun r => by simp [hrank]) hmap henabled

/-- Without an active voice, a claim and a named slot nothing is to be tied. -/
theorem allTied_of_no_active (hvoice : ∀ u v, s.voice u = some v → v.active = false)
    (hrank : ∀ r, (s.rank r).claim = none ∧ (s.rank r).slot = none) : s.AllTied := by
  have hno : ∀ u v, s.voice u = some v → v.active = true → False := fun u v hv hact => by rw [hvoice u v hv] at hact; cases hact
  refine ⟨fun u v hv _ hact => (hno u v hv hact).elim, fun u v r hv _ hact => (hno u v hv hact).elim, fun r u hu => ?_,
    fun r => .inl ⟨by rw [(hrank r).1, (hrank r).2]; rfl, by rw [(hrank r).2]; nofun⟩, fun r hr => (hr (hrank r).2).elim,
    fun u v r hv _ hact => (hno u v hv hact).elim⟩
  rw [(hrank r).2] at hu; cases hu

theorem State.Tied.ranks_of_no_active (h : s.AllTied) (hvoice : ∀ u v, s.voice u = some v → v.active = false) (r : Fin 3) :
    (s.rank r).claim = none ∧ (s.rank r).slot = none := by
  have hslot : (s.rank r).slot = none := by
    by_contra hne
    obtain ⟨u, hu⟩ := Option.ne_none_iff_exists'.1 hne
    obtain ⟨v, hv, -, hact⟩ := h.slot r u hu
    rw [hvoice u v hv] at hact; cases hact
  have hsome := ((h.claim r).resolve_right fun hn => hn.1).1
  rw [hslot] at hsome
  exact ⟨Option.isNone_iff_eq_none.1 (Option.isSome_eq_false_iff.1 hsome), hslot⟩

/-- The enables stand where the settings, the lead's bank and its program do. -/
theorem State.SameVoices.enables (h : s.SameVoices t) (hmaster : t.harmony.master = s.harmony.master)
    (hlive : t.harmony.liveRanks = s.harmony.liveRanks)
    (hprogram : ∀ u b, s.leadBank u = some b → t.programOfBank b = s.programOfBank b) : s.SameEnables t :=
  ⟨hmaster, hlive, h.leadBank, hprogram⟩

theorem referenced_of_leadBank {u : Fin 8} {b : BankId} (h : s.leadBank u = some b) : s.referenced b = true := by
  obtain ⟨v, hv, -, -, rfl⟩ := voice_of_leadBank h
  exact referenced_of_voice hv

/-! ### Release, legato and the lead's start -/

theorem allTied_releaseAll (s : State) : (releaseAll s).AllTied := by
  obtain ⟨⟨hslots, hranks, -⟩, -⟩ := releaseAll_releasedTo s
  refine allTied_of_no_active (fun u w hw => ?_) fun r => ⟨(hranks r).2.1, (hranks r).2.2.1⟩
  obtain ⟨-, hnone, hfading, hactive⟩ := hslots u
  cases hv : s.voice u with
  | none => rw [hnone hv] at hw; cases hw
  | some v =>
    cases hrel : v.releasing with
    | true =>
      obtain rfl := Option.some.inj ((hfading v hv hrel).symm.trans hw)
      simp [Voice.active, hrel]
    | false =>
      obtain rfl := Option.some.inj ((hactive v hv hrel).1.symm.trans hw)
      rfl

theorem leadTag_eq_some {u : Fin 8} (h : s.leadTag = some u) : ∃ v, s.voice u = some v ∧ v.role = .lead ∧ v.state = .sounding := by
  have := List.find?_some h
  split at this
  · next v hv =>
    simp only [Voice.sounding, Bool.and_eq_true, decide_eq_true_eq] at this
    exact ⟨v, hv, this⟩
  · cases this

/-- A lead-note change: every claim abandoned, then planned anew (R56, R116). -/
theorem State.Tied.deliverLeadChange (h : s.AllTied) : (deliverLeadChange s).AllTied := by
  by_cases hart : s.breath.articulation = .sounding
  swap
  · rw [deliverLeadChange_of_no_lead (.inl hart)]; exact h
  cases hu : s.leadTag with
  | none => rw [deliverLeadChange_of_no_lead (.inr hu)]; exact h
  | some u =>
    obtain ⟨v, hv, hrole, hsound⟩ := leadTag_eq_some hu
    obtain ⟨t, ⟨hslots, hranks, -, -, hframe⟩, heq⟩ := deliverLeadChange_legatoTo hart hu hv
    have hvoice : ∀ x, t.voice x = if x = u then
        some { v with note := s.resolver.leadNote, baseTarget := 1000 * s.resolver.leadNote } else s.voice x := fun x => by
      rw [State.voice, State.slot, hslots, Eight.get_set]
      split <;> rfl
    have hsame : s.SameVoices t := by
      constructor
      · intro x w hw _
        rw [hvoice] at hw
        split at hw
        · next hx => obtain rfl := Option.some.inj hw; exact ⟨v, hx ▸ hv, rfl, rfl, fun hn => (hn hrole).elim, rfl⟩
        · exact ⟨w, hw, rfl, rfl, fun _ => rfl, rfl⟩
      · intro x w hw _
        rw [hvoice]
        split
        · next hx => subst hx; obtain rfl := Option.some.inj (hv.symm.trans hw); exact ⟨_, rfl, rfl, rfl, fun hn => (hn hrole).elim, rfl⟩
        · exact ⟨w, hw, rfl, rfl, fun _ => rfl, rfl⟩
    have hmap : t.map.entries = s.map.entries := by rw [hframe]
    have hleadvoice : t.leadVoice ≠ none := by
      have hprogram : ∀ w b, s.leadBank w = some b → t.programOfBank b = s.programOfBank b := fun _ _ _ => by rw [hframe]; rfl
      refine (hsame.enables (by rw [hframe]) (by rw [hframe]) hprogram).leadVoice_ne_none ?_
      simp [State.leadVoice, hu, hv]
    -- the voices and slots as before, every claim gone
    let x : State := { t with harmony := s.harmony }
    have hx : x.AllTied := h.congr (t := x) hsame (fun _ => ⟨rfl, rfl, Iff.rfl⟩) hmap fun r => by
      have hprogram : ∀ b, x.programOfBank b = s.programOfBank b := fun _ => by simp only [x]; rw [hframe]; rfl
      exact (State.SameVoices.enables (t := x) hsame rfl rfl fun _ b _ => hprogram b).enabled r
    have hloose : t.Tied (· ∈ allRanks) (fun _ => False) (fun _ _ => False) := by
      have hslot : ∀ r, (t.rank r).slot = (s.rank r).slot := fun r => by rw [(hranks r).2]
      refine ⟨hx.lead, fun y w r hw hr ha => (hslot r).trans (hx.named y w r hw hr ha), fun r y hy => hx.slot r y ((hslot r).symm.trans hy),
        fun r => .inr ⟨by fin_cases r <;> decide, by rw [(hranks r).2]⟩, fun r hr => ?_, hx.clear⟩
      rw [(hranks r).1]
      exact h.enabled r ((hslot r) ▸ hr)
    rw [heq]
    exact hloose.planList (keep := true) (by decide) (fun r _ => by rw [(hranks r).2]) nofun fun _ => hleadvoice

theorem allocate_lead (hinactive : ∀ u v, s.voice u = some v → v.active = false) {u : Fin 8} {n : Nat} {b : BankId} {o : Option Nat}
    {x : State} (h : allocate .lead n b o s = (some u, x)) (hrank : ∀ r, (s.rank r).claim = none ∧ (s.rank r).slot = none) :
    x.AllTied := by
  obtain ⟨-, rfl⟩ := allocate_some h
  have hranks : ∀ r, (loadPending (setSlot u ((s.slot u).start (s.newVoice .lead n b o)) s)).rank r = s.rank r :=
    fun r => rank_congr (loadPending_harmony _) r
  have hactive : ∀ v w, (loadPending (setSlot u ((s.slot u).start (s.newVoice .lead n b o)) s)).voice v = some w → w.active = true →
      v = u ∧ w = s.newVoice .lead n b o := by
    intro v w hw hact
    rw [voice_loadPending_start] at hw
    split at hw
    · next hv => exact ⟨hv, (Option.some.inj hw).symm⟩
    · rw [hinactive v w hw] at hact; cases hact
  refine ⟨fun v w hw _ hact => ?_, fun v w r hw hr hact => ?_, fun r v hv => ?_, fun r => .inl ⟨?_, ?_⟩, fun r hr => ?_,
    fun v w r hw hr hact => ?_⟩
  · obtain ⟨rfl, rfl⟩ := hactive v w hw hact
    exact ⟨rfl, fun v' w' hw' _ hact' => (hactive v' w' hw' hact').1⟩
  · obtain ⟨-, rfl⟩ := hactive v w hw hact
    cases hr
  · rw [hranks, (hrank r).2] at hv; cases hv
  · rw [hranks, (hrank r).1, (hrank r).2]; rfl
  · rw [hranks, (hrank r).2]; nofun
  · rw [hranks] at hr
    exact (hr (hrank r).2).elim
  · obtain ⟨-, rfl⟩ := hactive v w hw hact
    cases hr

theorem State.Tied.leadStart (h : s.AllTied) (hinactive : ∀ u v, s.voice u = some v → v.active = false) : (leadStart s).AllTied := by
  unfold Machine.leadStart
  split
  · exact h
  · split
    · next u x hx =>
      have hrank := h.ranks_of_no_active hinactive
      have htied := allocate_lead hinactive hx hrank
      have hharmony := allocate_harmony .lead s.resolver.leadNote s.banks.selector (some s.breath.onsetPeak) s
      rw [hx] at hharmony
      have hqueued : ∀ r, (queueNoteStart u x).rank r = s.rank r := fun r => rank_congr ((queueNoteStart_harmony u x).trans hharmony) r
      have hwork := voiceWork_queueNoteStart u x
      have hvoices : ∀ v, (queueNoteStart u x).voice v = x.voice v := fun v => voice_congr (queueNoteStart_slots u x) v
      have hprogram : ∀ b, (queueNoteStart u x).programOfBank b = x.programOfBank b := fun b => by
        unfold queueNoteStart
        split <;> rfl
      have hsame : x.SameVoices (queueNoteStart u x) := ⟨fun v w hw _ => ⟨w, (hvoices v).symm.trans hw, rfl, rfl, fun _ => rfl, rfl⟩,
        fun v w hw _ => ⟨w, (hvoices v).trans hw, rfl, rfl, fun _ => rfl, rfl⟩⟩
      have hnext : (queueNoteStart u x).AllTied :=
        htied.of_same hvoices (fun r => rank_congr (queueNoteStart_harmony u x) r) (congrArg SectionMap.entries hwork.map)
          (hsame.enables hwork.master hwork.liveRanks fun _ b _ => hprogram b).enabled
      exact (hnext.mono (fun _ => False.elim) (fun _ => id) fun _ _ => id).planList (keep := false) (l := allRanks) (by decide)
        (fun r _ => by rw [hqueued]; exact (hrank r).1) (fun _ r _ => by rw [hqueued]; exact (hrank r).2) nofun
    · next u x hx =>
      have : x = s := by
        unfold allocate at hx
        split at hx
        · cases hx
        · exact (Prod.mk.inj hx).2.symm
      exact this ▸ h

/-! ### Changes of the enables -/

/-- One rank after a change of the enables (R98). -/
theorem tied_enableChanged {l : List (Fin 3)} {r : Fin 3} (hr : r ∉ l) {before after : Fin 3 → Bool}
    (h : s.Tied (fun _ => False) (fun q => q ∈ r :: l ∧ before q = true ∧ after q = false) (fun _ _ => False))
    (henabled : ∀ q, s.enabled q = after q)
    (hrank : ∀ q ∈ r :: l, before q = false → (s.rank q).claim = none ∧ (s.rank q).slot = none) :
    let t := enableChanged r (before r) (after r) s
    t.Tied (fun _ => False) (fun q => q ∈ l ∧ before q = true ∧ after q = false) (fun _ _ => False) ∧
      (∀ q, t.enabled q = after q) ∧ ∀ q ∈ l, before q = false → (t.rank q).claim = none ∧ (t.rank q).slot = none := by
  have hother : ∀ q ∈ l, q ≠ r := fun q hq he => hr (he ▸ hq)
  have hdrop : ∀ q, q ≠ r ∧ q ∈ r :: l ∧ before q = true ∧ after q = false → q ∈ l ∧ before q = true ∧ after q = false :=
    fun q ⟨hne, hm, hrest⟩ => ⟨(List.mem_cons.1 hm).resolve_left hne, hrest⟩
  intro t
  simp only [t]
  rw [enableChanged_eq]
  split
  · obtain ⟨hsame, ht⟩ := h.giveUp r
    refine ⟨ht.mono (fun _ => And.right) hdrop fun _ _ => And.right, fun q => (hsame.enabled q).trans (henabled q), fun q hq hb => ?_⟩
    rw [disableYield, giveUp_rank, if_neg (hother q hq)]
    exact hrank q (List.mem_cons_of_mem _ hq) hb
  · next hyield =>
    have hfree : ∀ q, q ∈ r :: l ∧ before q = true ∧ after q = false → q ∈ l ∧ before q = true ∧ after q = false :=
      fun q hq => hdrop q ⟨fun he => hyield (he ▸ hq.2), hq⟩
    have h' := h.mono (fun _ => id) hfree fun _ _ => id
    split
    · next hplan =>
      obtain ⟨hclaim, hslot⟩ := hrank r List.mem_cons_self hplan.1
      obtain ⟨hsame, ht⟩ := h'.plan (start := (s.rank r).position) (keep := false) ((henabled r).trans hplan.2) hclaim (fun _ => hslot) nofun
      refine ⟨ht.mono (fun _ => And.right) (fun _ => id) fun _ _ => id, fun q => (hsame.enabled q).trans (henabled q), fun q hq hb => ?_⟩
      rw [plan_rank_other (hother q hq)]
      exact hrank q (List.mem_cons_of_mem _ hq) hb
    · exact ⟨h', henabled, fun q hq => hrank q (List.mem_cons_of_mem _ hq)⟩

theorem tied_enableList {before after : Fin 3 → Bool} {l : List (Fin 3)} (hnodup : l.Nodup)
    (h : s.Tied (fun _ => False) (fun q => q ∈ l ∧ before q = true ∧ after q = false) (fun _ _ => False))
    (henabled : ∀ q, s.enabled q = after q) (hrank : ∀ q ∈ l, before q = false → (s.rank q).claim = none ∧ (s.rank q).slot = none) :
    (l.foldl (fun acc r => enableChanged r (before r) (after r) acc) s).AllTied := by
  induction l generalizing s with
  | nil => exact h.mono (fun _ => id) (fun _ hm => nomatch hm.1) fun _ _ => id
  | cons r l ih =>
    obtain ⟨hr, hl⟩ := List.nodup_cons.1 hnodup
    obtain ⟨ht, he, hk⟩ := tied_enableChanged hr h henabled hrank
    exact ih hl ht he hk

theorem State.Tied.unnamed (h : s.AllTied) {r : Fin 3} (henabled : s.enabled r = false) :
    (s.rank r).claim = none ∧ (s.rank r).slot = none := by
  have hslot : (s.rank r).slot = none := by
    by_contra hne
    rw [(h.enabled r hne).resolve_right id] at henabled; cases henabled
  have hsome := ((h.claim r).resolve_right fun hn => hn.1).1
  rw [hslot] at hsome
  exact ⟨Option.isNone_iff_eq_none.1 (Option.isSome_eq_false_iff.1 hsome), hslot⟩

theorem allTied_enables (h : s.AllTied) (master : Bool) (live : BitVec 3) :
    (changeEnables (fun x => { x with harmony := { x.harmony with master := master, liveRanks := live } }) s).AllTied := by
  refine tied_enableList (before := s.enabled)
    (after := State.enabled { s with harmony := { s.harmony with master := master, liveRanks := live } }) (by decide)
    ⟨h.lead, h.named, h.slot, h.claim, fun r hr => ?_, h.clear⟩ (fun _ => rfl) fun q _ hq => h.unnamed hq
  have hbefore : s.enabled r = true := (h.enabled r hr).resolve_right id
  cases hafter : State.enabled { s with harmony := { s.harmony with master := master, liveRanks := live } } r with
  | true => exact .inl rfl
  | false => exact .inr ⟨by fin_cases r <;> decide, hbefore, rfl⟩

/-! ### Placed entries -/

theorem yieldsTo_of_lead {r : Fin 3} {c : Claim} {e : MapEntry} (hok : RankOk (s.rank r)) (hclaim : (s.rank r).claim = some c)
    (hnote : c.note = e.note) (hlead : e.role = .lead) : s.yieldsTo r e = true := by
  have hstage : ¬ ((s.rank r).stage = .idle ∨ (s.rank r).stage = .exhausted) := fun hs => by
    rw [hok.1.2 hs] at hclaim; cases hclaim
  rw [not_or] at hstage
  simp only [State.yieldsTo, Rank.claims, hclaim, hlead, Rank.inStage, Bool.and_eq_true]
  refine ⟨by simpa using hnote, ?_⟩
  cases hst : (s.rank r).stage with
  | idle => exact absurd hst hstage.1
  | exhausted => exact absurd hst hstage.2
  | queued => rfl
  | window => rfl
  | localPending => rfl
  | sounding => rfl

/-- The check of one entry against the ranks of a list (R112). -/
theorem tied_checkRanks {e : MapEntry} {unchecked : Fin 3 → MapEntry → Prop} {l : List (Fin 3)}
    (h : s.Tied (fun _ => False) (fun _ => False) (fun r x => unchecked r x ∨ (r ∈ l ∧ x = e))) (hok : s.RanksOk) :
    (l.foldl (fun s r => if s.yieldsTo r e then yieldRank r s else s) s).Tied (fun _ => False) (fun _ => False) unchecked ∧
      (l.foldl (fun s r => if s.yieldsTo r e then yieldRank r s else s) s).RanksOk := by
  induction l generalizing s with
  | nil => exact ⟨h.mono (fun _ => id) (fun _ => id) fun _ _ hu => hu.resolve_right fun hm => (nomatch hm.1), hok⟩
  | cons r l ih =>
    rw [List.foldl_cons]
    refine ih ?_ ?_
    · split
      · refine (h.yieldRank r).mono (fun _ => id) (fun _ => id) fun q x hu => ?_
        obtain ⟨hne, hu | ⟨hm, hx⟩⟩ := hu
        · exact .inl hu
        · exact .inr ⟨(List.mem_cons.1 hm).resolve_left hne, hx⟩
      · next hno =>
        refine ⟨h.lead, h.named, h.slot, h.claim, h.enabled, fun t v q hv hrole hact x hx hl hn => ?_⟩
        obtain hu | ⟨hm, hxe⟩ := h.clear t v q hv hrole hact x hx hl hn
        · exact .inl hu
        · refine .inr ⟨(List.mem_cons.1 hm).resolve_left ?_, hxe⟩
          rintro rfl
          have htag := h.named t v q hv hrole hact
          obtain ⟨-, htied⟩ := (h.claim q).resolve_right fun hn => hn.1
          obtain ⟨c, hc, hnote⟩ := Option.map_eq_some_iff.1 (htied t v htag hv).1
          exact hno (yieldsTo_of_lead (hok.1 q) hc (hnote.trans (hxe ▸ hn.symm)) (hxe ▸ hl))
    · split
      · exact ranksOk_yieldRank hok r
      · exact hok

theorem tied_checkEntries {new : List MapEntry} (h : s.Tied (fun _ => False) (fun _ => False) (fun _ x => x ∈ new)) (hok : s.RanksOk) :
    (new.foldl (fun x e => checkEntry e x) s).AllTied := by
  induction new generalizing s with
  | nil => exact h.mono (fun _ => id) (fun _ => id) fun _ _ hm => nomatch hm
  | cons e new ih =>
    rw [List.foldl_cons]
    obtain ⟨ht, hk⟩ := tied_checkRanks (e := e) (l := allRanks) (unchecked := fun _ x => x ∈ new)
      (h.mono (fun _ => id) (fun _ => id) fun r x hm => (List.mem_cons.1 hm).elim
        (fun hx => .inr ⟨by fin_cases r <;> decide, hx⟩) .inl) hok
    exact ih ht hk

end

end Sys2Proof.Machine

/-!
O58: every move keeps the law of the Voice Table with the ranks.
-/

namespace Sys2Proof.Machine

section
variable {s t : State}

theorem rankTag_setRank {r : Fin 3} {k : Rank} (h : k.slot = (s.rank r).slot) : (setRank r k s).rankTag r = s.rankTag r := by
  unfold State.rankTag
  rw [rank_setRank_same, h]
  rfl

/-- A confirmation: PROVISIONAL becomes SOUNDING with its rank (R57, R107). -/
theorem State.Tied.confirm (h : s.AllTied) {r : Fin 3} (hclaim : (s.rank r).claim ≠ none) : (confirm r s).AllTied := by
  have hclaimed := (h.claim r).resolve_right fun hn => hn.1
  obtain ⟨c, hc⟩ := Option.ne_none_iff_exists'.1 hclaim
  obtain ⟨u, hu⟩ := Option.isSome_iff_exists.1 (hclaimed.1 ▸ by rw [hc]; rfl : (s.rank r).slot.isSome = true)
  obtain ⟨v, hv, hrole, hact⟩ := h.slot r u hu
  have hnote := (hclaimed.2 u v hu hv).1
  have henabled : s.enabled r = true := (h.enabled r (by rw [hu]; nofun)).resolve_right id
  have htag : (setRank r { s.rank r with stage := .sounding, localDue := false } s).rankTag r = some u :=
    (rankTag_setRank (k := { s.rank r with stage := .sounding, localDue := false }) rfl).trans ((h.rankTag r).trans hu)
  have hvoice : ∀ x, (Machine.confirm r s).voice x = if x = u then some { v with state := .sounding } else s.voice x := by
    intro x
    have hv' : (setRank r { s.rank r with stage := .sounding, localDue := false } s).voice u = some v := hv
    simp only [Machine.confirm, htag, hv']
    rw [voice_congr (queueNoteStart_slots u _), voice_setVoice]
    rfl
  have hbanks : (Machine.confirm r s).banks = s.banks := by
    have hv' : (setRank r { s.rank r with stage := .sounding, localDue := false } s).voice u = some v := hv
    simp only [Machine.confirm, htag, hv']
    unfold queueNoteStart
    split <;> rfl
  have hwork := voiceWork_confirm r s
  have hrank : (Machine.confirm r s).rank r = { s.rank r with stage := .sounding, localDue := false } := by
    rw [confirm_rank, if_pos rfl]
  refine (h.placed (t := Machine.confirm r s) (r := r) (u := u) (w := { v with state := .sounding }) (fun w hw _ => ?_) (.inr hu)
    ((hvoice u).trans (if_pos rfl)) hrole rfl (fun x hx => (hvoice x).trans (if_neg hx)) (by rw [hrank]; exact hu)
    (by rw [hrank]; exact hnote) (by rw [hrank]; simp) (fun q hq => by rw [confirm_rank, if_neg hq])
    (congrArg SectionMap.entries hwork.map) (.inl henabled)
    (fun e he hl hn => h.clear u v r hv hrole hact e he hl hn) hwork.master hwork.liveRanks
    fun _ b _ => by simp only [State.programOfBank, bank_congr hbanks]).2.mono (fun _ => And.right) (fun _ => id) fun _ _ => id
  obtain rfl := Option.some.inj (hv.symm.trans hw)
  exact hrole

/-- The gains of a boundary leave the active voices (R58, R63 to R65, R71). -/
theorem stepGains_sameVoices (s : State) : s.SameVoices (stepGains s) := by
  have hvoice : ∀ u, (stepGains s).voice u = (s.gainStep (s.slot u)).voice := fun u => by
    rw [stepGains, voice_congr (loadPending_slots _), State.voice, slot_mapSlots]
  constructor
  · intro u w hw hact
    rw [hvoice] at hw
    obtain ⟨v, hv, o, ⟨rfl, -⟩ | ⟨-, m, rfl, hrel⟩⟩ := gainStep_voice hw
    · exact ⟨v, hv, rfl, rfl, fun _ => rfl, rfl⟩
    · simp [Voice.active, hrel] at hact
  · intro u v hv hact
    have hrel : v.releasing = false := by simpa [Voice.active] using hact
    rw [hvoice]
    have hv' : (s.slot u).voice = some v := hv
    cases hw : (s.gainStep (s.slot u)).voice with
    | none =>
      cases hstate : v.state with
      | provisional => simp [State.gainStep, hv', hstate] at hw
      | sounding => simp [State.gainStep, hv', hstate] at hw
      | releasingNormal => simp [Voice.releasing, hstate] at hrel
      | releasingWithdraw => simp [Voice.releasing, hstate] at hrel
    | some w =>
      obtain ⟨v', hv'', o, ⟨rfl, -⟩ | ⟨hrel', -⟩⟩ := gainStep_voice hw
      · obtain rfl := Option.some.inj (hv'.symm.trans hv'')
        exact ⟨_, rfl, rfl, rfl, fun _ => rfl, rfl⟩
      · obtain rfl := Option.some.inj (hv'.symm.trans hv'')
        rw [hrel] at hrel'; cases hrel'

theorem stepGains_programOfBank {u : Fin 8} {b : BankId} (h : s.leadBank u = some b) :
    (stepGains s).programOfBank b = s.programOfBank b := by
  obtain ⟨v, hv, -, hact, rfl⟩ := voice_of_leadBank h
  obtain ⟨w, hw, -, -, -, hbank⟩ := (stepGains_sameVoices s).2 u v hv hact
  rw [stepGains, voice_congr (loadPending_slots _)] at hw
  exact loadPending_programOfBank (hbank ▸ referenced_of_voice hw)

theorem mapVoices_sameVoices {f : Voice → Voice} (hf : ∀ v, (f v).state = v.state ∧ (f v).role = v.role ∧ (f v).note = v.note ∧
    (f v).bank = v.bank) (s : State) : s.SameVoices (mapVoices f s) := by
  constructor
  · intro u w hw _
    rw [voice_mapVoices, Option.map_eq_some_iff] at hw
    obtain ⟨v, hv, rfl⟩ := hw
    obtain ⟨hs, hr, hn, hb⟩ := hf v
    exact ⟨v, hv, hs, hr, fun _ => hn, hb⟩
  · intro u v hv _
    obtain ⟨hs, hr, hn, hb⟩ := hf v
    exact ⟨f v, by rw [voice_mapVoices, hv]; rfl, hs, hr, fun _ => hn, hb⟩

theorem tied_mapVoices {f : Voice → Voice} (hf : ∀ v, (f v).state = v.state ∧ (f v).role = v.role ∧ (f v).note = v.note ∧
    (f v).bank = v.bank) (h : s.AllTied) : (mapVoices f s).AllTied :=
  h.congr (t := mapVoices f s) (mapVoices_sameVoices hf s) (fun _ => ⟨rfl, rfl, Iff.rfl⟩) rfl
    ((mapVoices_sameVoices hf s).enables rfl rfl fun _ _ _ => rfl).enabled

/-- A bank's change that keeps what a referenced bank holds. -/
theorem tied_bank (h : s.AllTied) {b : BankId} {x : BankState} {reading : Option ReadInFlight}
    (hheld : s.referenced b = true → x.held? = (s.bank b).held?) :
    State.AllTied { setBank b x s with loader := { s.loader with reading := reading } } := by
  have hsame : s.SameVoices { setBank b x s with loader := { s.loader with reading := reading } } := by
    have hvoice : ∀ u, State.voice { setBank b x s with loader := { s.loader with reading := reading } } u = s.voice u :=
      fun u => voice_congr (setBank_slots s b x) u
    exact ⟨fun u w hw _ => ⟨w, (hvoice u).symm.trans hw, rfl, rfl, fun _ => rfl, rfl⟩,
      fun u v hv _ => ⟨v, (hvoice u).trans hv, rfl, rfl, fun _ => rfl, rfl⟩⟩
  have hharmony : State.harmony { setBank b x s with loader := { s.loader with reading := reading } } = s.harmony :=
    setBank_harmony s b x
  refine h.congr hsame (fun r => by rw [rank_congr hharmony]; exact ⟨rfl, rfl, Iff.rfl⟩)
    (congrArg SectionMap.entries (setBank_map s b x))
    (hsame.enables (congrArg Harmony.master hharmony) (congrArg Harmony.liveRanks hharmony) fun u c hc => ?_).enabled
  have hbank : State.bank { setBank b x s with loader := { s.loader with reading := reading } } c = if c = b then x else s.bank c :=
    bank_setBank s b c x
  have hheld' : (State.bank { setBank b x s with loader := { s.loader with reading := reading } } c).held? = (s.bank c).held? := by
    rw [hbank]
    split
    · next hcb => subst hcb; exact hheld (referenced_of_leadBank hc)
    · rfl
  simp only [State.programOfBank, hheld']

/-- A rank's record that keeps its claim and its slot and neither enters nor leaves SOUNDING. -/
theorem tied_setRank (h : s.AllTied) {r : Fin 3} {k : Rank} (hclaim : k.claim = (s.rank r).claim) (hslot : k.slot = (s.rank r).slot)
    (hstage : k.stage = .sounding ↔ (s.rank r).stage = .sounding) : (setRank r k s).AllTied := by
  refine h.congr (t := setRank r k s) ⟨fun u w hw _ => ⟨w, hw, rfl, rfl, fun _ => rfl, rfl⟩,
    fun u v hv _ => ⟨v, hv, rfl, rfl, fun _ => rfl, rfl⟩⟩ (fun q => ?_) rfl fun _ => rfl
  rw [rank_setRank]
  split
  · next hq => subst hq; exact ⟨hclaim, hslot, hstage⟩
  · exact ⟨rfl, rfl, Iff.rfl⟩

theorem allTied_of_no_voice (hvoice : ∀ u, s.voice u = none) (hrank : ∀ r, (s.rank r).claim = none ∧ (s.rank r).slot = none) : s.AllTied :=
  allTied_of_no_active (fun u v hv => by rw [hvoice u] at hv; cases hv) hrank

theorem Move.keeps_allTied {s t : State} (h : Move s t) (hs : s.VoicesOk) : t.AllTied := by
  obtain ⟨hbanks, hharmony, htied⟩ := (voicesOk_iff s).1 hs
  have hranks : s.RanksOk := ⟨hharmony.1, hharmony.2.1⟩
  cases h with
  | release x => exact allTied_releaseAll _
  | lead n => exact State.Tied.deliverLeadChange (htied.of_same (fun _ => rfl) (fun _ => rfl) rfl fun _ => rfl)
  | start x hart _ =>
    have hinactive : ∀ u v, s.voice u = some v → v.active = false := fun u v hv => by
      simp [Voice.active, hs.2.2.2.1 (by rw [hart]; nofun) u v hv]
    exact State.Tied.leadStart (htied.of_same (fun _ => rfl) (fun _ => rfl) rfl fun _ => rfl) hinactive
  | enables m l => exact allTied_enables htied m l
  | yields r => exact (htied.yieldRank r).mono (fun _ => id) (fun _ => id) fun _ _ => And.right
  | confirm r hstage =>
    refine htied.confirm fun hnone => ?_
    have := (hranks.1 r).1.1 hnone
    obtain hi | he := this <;> obtain hw | hl := hstage <;> simp_all
  | rank r k hkeep hstage =>
    refine tied_setRank htied hkeep.1 hkeep.2.2 ?_
    obtain h | ⟨h, h' | h'⟩ := hstage
    · rw [h]
    · simp [h, h']
    · simp [h, h']
  | gains =>
    have hwork := voiceWork_stepGains s
    exact htied.congr (stepGains_sameVoices s) (fun r => by rw [rank_congr (stepGains_harmony s)]; exact ⟨rfl, rfl, Iff.rfl⟩)
      (congrArg SectionMap.entries hwork.map)
      ((stepGains_sameVoices s).enables hwork.master hwork.liveRanks fun _ _ => stepGains_programOfBank).enabled
  | glide => exact tied_mapVoices (fun _ => ⟨rfl, rfl, rfl, rfl⟩) htied
  | tune => exact tied_mapVoices (fun _ => ⟨rfl, rfl, rfl, rfl⟩) htied
  | slots x hx =>
    have hsame : s.SameVoices { s with slots := x } := ⟨fun u w hw _ => ⟨w, (hx u).symm.trans hw, rfl, rfl, fun _ => rfl, rfl⟩,
      fun u v hv _ => ⟨v, (hx u).trans hv, rfl, rfl, fun _ => rfl, rfl⟩⟩
    exact htied.of_same hx (fun _ => rfl) rfl (hsame.enables rfl rfl fun _ _ _ => rfl).enabled
  | map m new _ hnew =>
    refine tied_checkEntries (s := { s with map := m }) ⟨htied.lead, htied.named, htied.slot, htied.claim, htied.enabled,
      fun t v r hv hrole hact e he hl hn => ?_⟩ hranks
    obtain he | he := hnew e he
    · exact (htied.clear t v r hv hrole hact e he hl hn).elim
    · exact he
  | bank b x reading _ hheld => exact tied_bank htied (hheld hbanks)
  | defaultRead n hload =>
    have hvoice := no_voice_of_loading hbanks hload
    exact allTied_of_no_voice hvoice (htied.ranks_of_no_active fun u v hv => by rw [hvoice u] at hv; cases hv)
  | loadEnd image held lead line hload =>
    have hvoice := no_voice_of_loading hbanks hload
    exact allTied_of_no_voice hvoice (htied.ranks_of_no_active fun u v hv => by rw [hvoice u] at hv; cases hv)
  | reload => exact allTied_of_no_voice (voice_reloadPart s) fun r => by fin_cases r <;> exact ⟨rfl, rfl⟩
  | _ => exact htied.of_same (fun _ => rfl) (fun _ => rfl) rfl fun _ => rfl

end

/-- Settles O58: the tie of voices and ranks through every move, and the count of its active voices. -/
theorem stepKeepsVoices : Obligations.StepKeepsVoices := by
  refine ⟨fun _ _ hs h => step_keeps (law := State.VoicesOk) (fun _ _ h => h) voicesOk_reset (fun s st hr hu => ?_)
    (fun s t hr hm hs => (voicesOk_iff t).2 ⟨hm.keeps_banksOk hr hs.1, hm.keeps_harmonyOk hs.2.1, hm.keeps_allTied hs⟩) hs h, fun s hs => ?_⟩
  · obtain ⟨hbanks, hharmony, htied⟩ := (voicesOk_iff s).1 hu
    exact (voicesOk_iff _).2 ⟨banksOk_beginLoad hbanks hr st, hharmony, htied.of_same (fun _ => rfl) (fun _ => rfl) rfl fun _ => rfl⟩
  · have hcount := active_length_le ((voicesOk_iff s).1 hs).2.2
    exact ⟨hcount, allocationTag_isSome hcount⟩

end Sys2Proof.Machine

/-!
Single commands of a running part: what each does to the state it finds. O1, O3 and O4.
-/

namespace Sys2Proof.Machine

section
variable {s : State} {c : Instr}

theorem exec_running (hc : c.ofReset = false) (hr : s.Running) : exec c s = .next (c.effect (c.found s)) := by
  rw [exec_eq hc, unlessHeld_of_running hr]

theorem exec_held (hc : c.ofReset = false) (hr : s.power.resetHeld = true) : exec c s = .next s := by
  rw [exec_eq hc]
  simp [unlessHeld, hr]

theorem rootSettled_of_steady (h : s.pitch.settleCount < Config.rootSettle) : rootSettled s = s := by
  unfold rootSettled State.rootDue
  rw [if_neg]
  simpa using h

theorem found_of_quiet (hq : s.Quiet) (c : Instr) : c.found s = s := by
  unfold Instr.found
  rw [settle_of_quiet hq, rootSettled_of_steady hq.2.1.1]
  simp

/-- A command in a running part with nothing due is its effect. -/
theorem exec_quiet (hc : c.ofReset = false) (hr : s.Running) (hq : s.Quiet) : exec c s = .next (c.effect s) := by
  rw [exec_running hc hr, found_of_quiet hq]

/-- A step of the part, or a message, that touches no pitch is its effect. -/
theorem exec_inside (hc : c.ofReset = false) (hr : s.Running) (ho : c.fromOutside = false) (ha : c.adoptsRoot = false) :
    exec c s = .next (c.effect s) := by
  rw [exec_running hc hr, Instr.found, ho, ha]
  rfl

/-- A step that touches the pitch, where no root adoption is due, is its effect. -/
theorem exec_steady (hc : c.ofReset = false) (hr : s.Running) (ho : c.fromOutside = false)
    (h : s.pitch.settleCount < Config.rootSettle) : exec c s = .next (c.effect s) := by
  rw [exec_running hc hr, Instr.found, ho, rootSettled_of_steady h]
  simp

end

/-- Settles O1: the definition of a step. -/
theorem stepRunsFrontCommand : Obligations.StepRunsFrontCommand := by
  intro s c rest h
  simp only [step, h]

/-- Settles O4: power-on reset writes the reset values out, and its release begins the load. -/
theorem resetClearsPartAndReadsStraps : Obligations.ResetClearsPartAndReadsStraps := by
  refine ⟨fun s => ⟨_, rfl, rfl, rfl, rfl, rfl, rfl, ⟨rfl, rfl, rfl, rfl, rfl, rfl, rfl⟩,
    ⟨rfl, rfl, rfl, rfl, rfl, rfl, rfl, rfl, rfl, rfl, rfl, rfl⟩, fun d => ?_, fun u => ?_, ⟨rfl, rfl, rfl⟩, ⟨rfl, rfl, rfl, rfl⟩,
    fun r => ?_, ⟨rfl, rfl, rfl, rfl, rfl⟩, ⟨rfl, fun st => ?_⟩, ⟨rfl, rfl, rfl, rfl, rfl, rfl, rfl, rfl, rfl⟩,
    rfl, rfl, rfl, ⟨rfl, rfl, rfl, rfl, rfl⟩⟩, fun s straps hr => ?_⟩
  · fin_cases d <;> exact ⟨rfl, rfl⟩
  · fin_cases u <;> rfl
  · fin_cases r <;> exact ⟨rfl, rfl, rfl, rfl, rfl⟩
  · fin_cases st <;> rfl
  · have hrelease : releaseReset straps s = beginLoad { s with power := { resetHeld := false, station := ⟨straps.toNat, straps.isLt⟩ } } :=
      if_pos hr
    exact ⟨_, congrArg Host.Outcome.next hrelease, rfl, rfl, rfl, rfl, rfl⟩

/-! ### Commands whose condition does not hold -/

theorem processHead_of_not {f : Message → Option (State → State)} {s : State} (h : ∀ m, s.headMessage = some m → f m = none) :
    processHead f s = s := by
  unfold processHead
  split
  · next m hm => rw [h m hm]
  · rfl

theorem fireNext_of_none {s : State} (h : ∀ d : Fin 4, s.firing d = none) : fireNext s = s := by
  have hnone : s.nextFiring = none := by
    unfold State.nextFiring
    rw [List.find?_eq_none]
    intro d _
    rw [h d]
    nofun
  simp only [fireNext, hnone]

theorem peer_of_not_hears {s : State} {frame : List Byte} {k : Nat} (h : ¬ s.Hears frame k) {f : LineFrame}
    (hf : s.peerFrame frame = some f) : f.payload.kind ≠ k := by
  obtain ⟨hverdict, hline, hstation⟩ := peerFrame_eq_some.1 hf
  exact fun hk => h ⟨f, hverdict, hline, hstation, hk⟩

/-- A command whose condition does not hold leaves the state it finds (assumption 3). -/
theorem effect_of_not_meets {s : State} {c : Instr} (h : ¬ s.Meets c) : c.effect s = s := by
  cases c with
  | powerOnReset | resetRelease | panelTransferAborted => rfl
  | audioBlockBoundary | sample | panelTransfer => exact absurd trivial h
  | imageLoadFault flash => exact if_neg h
  | imageLoadComplete flash =>
    show imageLoadComplete flash s = s
    unfold imageLoadComplete
    split
    · next hl =>
      have hnone : loadImage flash = none := by
        by_contra hn
        exact h ⟨hl, hn⟩
      rw [hnone]
    · rfl
  | defaultProgramReadStart flash =>
    show defaultReadStart flash s = s
    unfold defaultReadStart
    split
    · next hl =>
      split
      · next img himg =>
        have hnone : img.defaultNumber = none := by
          by_contra hn
          exact h ⟨hl, img, himg, hn⟩
        rw [hnone]
      · rfl
    · rfl
  | programReadComplete flash =>
    show programReadComplete flash s = s
    unfold programReadComplete
    split
    · next b n img hread himg => exact absurd ⟨⟨b, n, hread⟩, by rw [himg]; nofun⟩ h
    · rfl
  | sensorFrame burst => exact takeBurst_of_bad (not_not.1 h) s
  | baselineCaptureComplete =>
    show captureComplete s = s
    unfold captureComplete
    split
    · rfl
    · next hb => rw [if_neg fun hc => h ⟨hb, hc⟩]
  | onsetEnd => exact if_neg h
  | sensorLost => exact if_neg h
  | detectorFire => exact fireNext_of_none fun d => not_not.1 fun hd => h ⟨d, hd⟩
  | rootSettled => exact rootSettled_of_steady (Nat.lt_of_not_le h)
  | transposeTaken => exact if_neg h
  | tuningTaken => exact if_neg h
  | keyTaken => exact if_neg h
  | ranksTaken => exact if_neg h
  | staleClaim r => exact if_neg h
  | claimConfirm r => exact if_neg h
  | localResolution r => exact if_neg h
  | stationExpiry st => exact if_neg h
  | joiningComplete => exact if_neg h
  | decayTimerExpiry => exact if_neg h
  | listenOnlyEnd => exact if_neg h
  | rosterTimerExpiry =>
    refine if_neg fun hd => h ?_
    unfold Line.rosterDue at hd
    split at hd
    · next n hn =>
      simp only [Bool.and_eq_true, decide_eq_true_eq] at hd
      exact ⟨hd.1, n, hn, hd.2⟩
    · cases hd
  | transmitStart =>
    show transmitStart s = s
    unfold transmitStart
    split
    · next head rest hq hu => exact if_neg fun ha => h ⟨ha, by rw [hq]; nofun, hu⟩
    · rfl
  | arbitrationLost winner =>
    show arbitrationLost winner s = s
    unfold arbitrationLost
    split
    · next p hp => exact if_neg fun hw => h ⟨p, hp, hw⟩
    · rfl
  | bitError =>
    show bitError s = s
    unfold bitError
    rw [not_not.1 h]
  | ownFrameComplete =>
    show ownFrameComplete s = s
    unfold ownFrameComplete
    rw [not_not.1 h]
  | lineFrameBroken bits => exact if_neg fun ⟨hr, hb⟩ => h ⟨of_decide_eq_true hr, hb⟩
  | frameDiscarded frame => exact if_neg fun ⟨hr, hb⟩ => h ⟨of_decide_eq_true hr, hb⟩
  | duplicateFrame frame =>
    show duplicateFrame frame s = s
    unfold duplicateFrame
    split
    · next f hf => exact if_neg fun ⟨hr, hs⟩ => h ⟨f, hf, of_decide_eq_true hr, hs⟩
    · rfl
  | peerNoteStart frame =>
    show peerNoteStart frame s = s
    unfold peerNoteStart
    split
    · next hf => exact absurd rfl (peer_of_not_hears h hf)
    · rfl
  | peerNoteEnd frame =>
    show peerNoteEnd frame s = s
    unfold peerNoteEnd
    split
    · next hf => exact absurd rfl (peer_of_not_hears h hf)
    · rfl
  | peerHeld frame =>
    show peerHeld frame s = s
    unfold peerHeld
    split
    · next hf => exact absurd rfl (peer_of_not_hears h hf)
    · rfl
  | peerClaim frame =>
    show peerClaim frame s = s
    unfold peerClaim
    split
    · next hf => exact absurd rfl (peer_of_not_hears h hf)
    · rfl
  | peerRoster frame =>
    show peerRoster frame s = s
    unfold peerRoster
    split
    · next hf => exact absurd rfl (peer_of_not_hears h hf)
    · rfl
  | program => exact processHead_of_not fun m hm => by cases m <;> first | rfl | exact absurd ⟨_, hm⟩ h
  | transpose => exact processHead_of_not fun m hm => by cases m <;> first | rfl | exact absurd ⟨_, hm⟩ h
  | tuning => exact processHead_of_not fun m hm => by cases m <;> first | rfl | exact absurd ⟨_, hm⟩ h
  | key => exact processHead_of_not fun m hm => by cases m <;> first | rfl | exact absurd ⟨_, _, hm⟩ h
  | ranks => exact processHead_of_not fun m hm => by cases m <;> first | rfl | exact absurd ⟨_, hm⟩ h
  | allOff => exact processHead_of_not fun m hm => by cases m <;> first | rfl | exact absurd hm h
  | status => exact processHead_of_not fun m hm => by cases m <;> first | rfl | exact absurd hm h
  | sectionRequest => exact processHead_of_not fun m hm => by cases m <;> first | rfl | exact absurd hm h
  | ack => exact processHead_of_not fun m hm => by cases m <;> first | rfl | exact absurd ⟨_, hm⟩ h
  | reload => exact processHead_of_not fun m hm => by cases m <;> first | rfl | exact absurd hm h
  | badMessage => exact processHead_of_not fun m hm => by cases m <;> first | rfl | exact absurd ⟨_, hm⟩ h
  | sectionEntryPlaced =>
    show placeSection s = s
    unfold placeSection
    split
    · rfl
    · next rep hrep => exact if_neg fun ⟨hout, hwaits⟩ => h ⟨by rw [hrep]; nofun, hout, hwaits⟩

/-- A root adoption changes no condition of the four steps it comes before. -/
theorem meets_rootSettled {s : State} {c : Instr} (h : c.adoptsRoot = true) : (rootSettled s).Meets c ↔ s.Meets c := by
  have hsame : (rootSettled s).panel = s.panel ∧ (rootSettled s).harmony = s.harmony := by
    unfold rootSettled
    split
    · exact ⟨rfl, rfl⟩
    · exact ⟨rfl, rfl⟩
  obtain ⟨hpanel, hharmony⟩ := hsame
  cases c with
  | transposeTaken => simp only [State.Meets, hpanel]
  | tuningTaken => simp only [State.Meets, hpanel]
  | ranksTaken => simp only [State.Meets, hpanel]
  | localResolution r => simp only [State.Meets, rank_congr hharmony]
  | _ => cases h

/-- Settles O3: every command is its effect on the state it finds, and that is nothing where its condition fails. -/
theorem everyCommandCompletes : Obligations.EveryCommandCompletes := by
  have hreset : ∀ {c : Instr}, c ≠ .powerOnReset → (∀ p, c ≠ .resetRelease p) → c.ofReset = false := by
    intro c hpower hrelease
    cases c with
    | powerOnReset => exact absurd rfl hpower
    | resetRelease p => exact absurd rfl (hrelease p)
    | _ => rfl
  -- the two commands of power-on reset in a running part whose condition does not hold
  have hidle : ∀ {c : Instr} {s : State}, s.Running → c.ofReset = true → ¬ s.Meets c → exec c s = .next s := by
    intro c s hr hc h
    cases c with
    | powerOnReset => exact absurd trivial h
    | resetRelease p => exact congrArg Host.Outcome.next (if_neg h)
    | _ => cases hc
  refine ⟨fun c s => ?_, fun c s hheld hpower hrelease => exec_held (hreset hpower hrelease) hheld, fun c s hr hq h => ?_,
    fun c s hr => ⟨fun ho h => ?_, fun ho h => ?_⟩⟩
  · by_cases hc : c.ofReset = false
    · cases hr : s.power.resetHeld with
      | true => exact ⟨s, exec_held hc hr, rfl⟩
      | false => exact ⟨_, exec_running hc hr, (Moves.sameCore ((moves_found c s).trans (moves_effect c _))).1⟩
    · cases c with
      | powerOnReset => exact ⟨_, rfl, rfl⟩
      | resetRelease p =>
        refine ⟨_, rfl, ?_⟩
        unfold releaseReset
        split <;> rfl
      | _ => exact absurd rfl hc
  · by_cases hc : c.ofReset = false
    · rw [exec_quiet hc hr hq, effect_of_not_meets h]
    · exact hidle hr (by simpa using hc) h
  · have hc : c.ofReset = false := by
      cases c with
      | powerOnReset => cases ho
      | resetRelease => cases ho
      | _ => rfl
    have hfound : c.found s = settle s := if_pos ho
    rw [exec_running hc hr, hfound, effect_of_not_meets h]
  · by_cases hc : c.ofReset = false
    · have hfound : c.found s = if c.adoptsRoot = true then rootSettled s else s := by simp [Instr.found, ho]
      rw [exec_running hc hr, hfound]
      split
      · next ha => rw [effect_of_not_meets fun hm => h ((meets_rootSettled ha).1 hm)]
      · rw [effect_of_not_meets h]
    · have ha : c.adoptsRoot = false := by
        cases c with
        | powerOnReset => rfl
        | resetRelease => rfl
        | _ => exact absurd rfl hc
      rw [hidle hr (by simpa using hc) h, ha]
      rfl

end Sys2Proof.Machine

/-!
The image load and the reads of program blocks (R72, R74, R177, R178, R180). O5, O6 and O8.
-/

namespace Sys2Proof.Machine

/-! ### Runs of bytes -/

theorem bytesFrom_length (bytes : List Byte) (start len : Nat) : (bytesFrom bytes start len).length = len := by
  simp [bytesFrom]

theorem bytesFrom_eq (bytes : List Byte) (start len : Nat) :
    bytesFrom bytes start len = (List.range len).map fun i => byteAt bytes (start + i) := by
  refine List.ext_getElem (by simp [bytesFrom]) fun i hi _ => ?_
  simp only [bytesFrom, List.getElem_append, List.getElem_map, List.getElem_range]
  split
  · next h =>
    simp only [List.length_take, List.length_drop] at h
    simp [byteAt, List.getD_eq_getElem?_getD, show start + i < bytes.length by omega]
  · next h =>
    simp only [bytesFrom_length] at hi
    simp only [List.length_take, List.length_drop] at h
    simp [byteAt, List.getD_eq_getElem?_getD, List.getElem?_eq_none (show bytes.length ≤ start + i by omega)]

theorem bytesFrom_append (bytes : List Byte) (start m n : Nat) :
    bytesFrom bytes start (m + n) = bytesFrom bytes start m ++ bytesFrom bytes (start + m) n := by
  simp [bytesFrom_eq, List.range_add, Nat.add_assoc]

/-- A run of bytes that ends in its CRC. -/
theorem crcGood_append {body check : List Byte} (h : check.length = 2) : crcGood (body ++ check) = true ↔ check = crcBytes body := by
  simp [crcGood, h]

/-! ### A bad image -/

/-- What the checks of a good image say (R177). -/
theorem checks_of_loadImage {flash : List Byte} (h : loadImage flash ≠ none) :
    (bytesFrom flash 0 4 = [75, 66, 50, 56] ∧ bytesFrom flash 4 1 = [1]) ∧
    bytesFrom flash 68 2 = crcBytes (bytesFrom flash 0 68) ∧
    (∀ k, 1 ≤ k → k ≤ 9 → ((imageDirectory flash).filter fun e => e.kind == k).length = 1) ∧
    (∀ e ∈ imageDirectory flash, sectionLengthAllowed e.kind e.length = true) ∧
    (∀ k, 1 ≤ k → k ≤ 9 → k ≠ 8 → crcGood (sectionBytes flash (imageDirectory flash) k) = true) := by
  have hgood : headerGood flash = true ∧ sectionsGood flash = true := by
    unfold loadImage at h
    split at h
    · next hg => simpa using hg
    · exact absurd rfl h
  obtain ⟨hheader, hsections⟩ := hgood
  simp only [headerGood, Bool.and_eq_true, decide_eq_true_eq, List.all_eq_true] at hheader
  simp only [sectionsGood, Bool.and_eq_true, List.all_eq_true] at hsections
  obtain ⟨⟨⟨hid, hcrc⟩, hwhole⟩, hlengths⟩ := hheader
  rw [show (5 : Nat) = 4 + 1 from rfl, bytesFrom_append] at hid
  rw [show (70 : Nat) = 68 + 2 from rfl, bytesFrom_append, crcGood_append (bytesFrom_length _ _ _)] at hcrc
  refine ⟨List.append_inj (s₂ := [75, 66, 50, 56]) (t₂ := [1]) hid (bytesFrom_length _ _ _), hcrc, fun k hlow hhigh => ?_, hlengths,
    fun k hlow hhigh hne => hsections.1.1 k ?_⟩
  · simp only [directoryWhole, List.all_eq_true, decide_eq_true_eq] at hwhole
    refine hwhole k ?_
    interval_cases k <;> decide
  · interval_cases k <;> first | decide | exact absurd rfl hne

theorem imageLoadFault_of_bad {s : State} {flash : List Byte} (hl : s.loadingImage = true) (h : loadImage flash = none) :
    imageLoadFault flash s = rosterAfterLoad (raise .imageFault
      { s with loader := { image := .fault, reading := none, startUpDone := true }, banks := Banks.reset }) :=
  if_pos ⟨hl, h⟩

theorem rosterAfterLoad_eq (s : State) :
    rosterAfterLoad s = { s with line := if s.line.state = .active then s.line.enqueue .roster else s.line } := by
  unfold rosterAfterLoad
  split
  · rfl
  · rfl

/-- An event that stands drives the attention line (R189). -/
theorem attn_of_unmarked {s : State} {e : Event} (h : s.panel.events.mark e = .unmarked) : s.attn = true := by
  have hbit := EventSet.bits_getLsbD_of_unmarked s.panel.events h
  simp only [State.attn, decide_eq_true_eq]
  intro hzero
  rw [hzero] at hbit
  simp at hbit

/-- Settles O5: any failed check makes the load end in FAULT. -/
theorem badImageFaultsLoad : Obligations.BadImageFaultsLoad := by
  intro s flash hr hq hl hbad
  have hnone : loadImage flash = none := by
    by_contra hgood
    obtain ⟨⟨hid, hversion⟩, hcrc, hkinds, hlengths, hsections⟩ := checks_of_loadImage hgood
    obtain h | h | h | ⟨k, hlow, hhigh, h⟩ | ⟨e, he, h⟩ | ⟨k, hlow, hhigh, hne, h⟩ := hbad
    · exact h hid
    · exact h hversion
    · exact h hcrc
    · exact h (hkinds k hlow hhigh)
    · rw [hlengths e he] at h; cases h
    · rw [hsections k hlow hhigh hne] at h; cases h
  have hexec : exec (.imageLoadFault flash) s = .next (imageLoadFault flash s) := exec_quiet rfl hr hq
  refine ⟨_, hexec, ?_⟩
  rw [imageLoadFault_of_bad hl hnone, rosterAfterLoad_eq]
  refine ⟨rfl, rfl, rfl, rfl, rfl, rfl, rfl, attn_of_unmarked (e := .imageFault) rfl, ?_, rfl, rfl⟩
  show Line.state (if s.line.state = .active then s.line.enqueue .roster else s.line) = s.line.state
  split
  · exact (sameLine_admit s.line .roster).state
  · rfl

/-! ### A good image -/

theorem imageLoadComplete_of_good {s : State} {flash : List Byte} {img : Image} (hl : s.loadingImage = true)
    (h : loadImage flash = some img) : imageLoadComplete flash s =
      let loaded := { s with
        loader := { image := .loaded img, reading := none, startUpDone := true }
        banks := banksAfterLoad (img.defaultHeld flash)
        breath := { s.breath with baseline := none, captureCount := 0, captureSum := 0 }
        detectors := detectorsReset
        resolver := { s.resolver with leadNote := s.resolver.computeLead }
        harmony := { s.harmony with key := img.defaultKey, scale := img.defaultScale } }
      lineAfterLoad (!s.loader.startUpDone) img.lineEnable
        (raise .imageLoaded (if img.defaultHeld flash = none then raise .programFault loaded else loaded)) := by
  simp only [imageLoadComplete, hl, h, if_true]

/-- Bank A as a load that ends LOADED leaves it (R74, R178). -/
theorem banksAfterLoad_a (img : Image) (flash : List Byte) :
    (banksAfterLoad (img.defaultHeld flash)).a = match img.defaultNumber with
      | none => .empty
      | some n =>
        match img.readProgram flash n with
        | none => .empty
        | some p => .ready { number := n, params := p } := by
  unfold banksAfterLoad Image.defaultHeld
  cases img.defaultNumber with
  | none => rfl
  | some n =>
    dsimp only
    cases img.readProgram flash n <;> rfl

/-- The line as a load that ends LOADED leaves it (R136, R141). -/
theorem lineAfterLoad_eq (startUp enable : Bool) (s : State) : lineAfterLoad startUp enable s = { s with
    line := if startUp then { s.line with state := if enable then .joining else .disabled, joiningTimer := 0 }
      else if s.line.state = .active then s.line.enqueue .roster else s.line } := by
  unfold lineAfterLoad
  split
  · rfl
  · rw [rosterAfterLoad_eq]

/-- Settles O6: the installation is one update, and the line follows by the kind of the load. -/
theorem imageLoadInstallsImage : Obligations.ImageLoadInstallsImage := by
  intro s flash img hr hq hl himg
  have hexec : exec (.imageLoadComplete flash) s = .next (imageLoadComplete flash s) := exec_quiet rfl hr hq
  refine ⟨_, hexec, ?_⟩
  rw [imageLoadComplete_of_good hl himg, lineAfterLoad_eq]
  have hbank := banksAfterLoad_a img flash
  have hempty : (banksAfterLoad (img.defaultHeld flash)).a = .empty ↔ img.defaultHeld flash = none := by
    unfold banksAfterLoad
    cases img.defaultHeld flash <;> simp
  have hreset : ∀ d : Fin 4, detectorsReset.get d = { hits := 0, armed := true } := by decide
  by_cases hnone : img.defaultHeld flash = none
  · simp only [hnone, if_true] at hbank hempty ⊢
    refine ⟨rfl, rfl, rfl, hbank, rfl, fun _ => rfl, fun h => absurd rfl h, ⟨rfl, rfl, rfl⟩, hreset, ⟨rfl, rfl⟩, fun h => ?_, fun h => ?_, rfl⟩
    · rw [h]; rfl
    · rw [h]; rfl
  · simp only [hnone, if_false] at hbank hempty ⊢
    refine ⟨rfl, rfl, rfl, hbank, rfl, fun h => absurd (hempty.1 h) id, fun _ => rfl, ⟨rfl, rfl, rfl⟩, hreset, ⟨rfl, rfl⟩, fun h => ?_, fun h => ?_, rfl⟩
    · rw [h]; rfl
    · rw [h]; rfl

/-! ### Program blocks -/

theorem defaultNumber_eq (img : Image) (h : img.directory ≠ []) :
    img.defaultNumber = some (min img.defaultProgram (img.directory.length - 1)) := by
  have hlength : img.directory.length ≠ 0 := by simpa using h
  unfold Image.defaultNumber
  rw [if_neg hlength]
  split
  · congr 1; omega
  · congr 1; omega

/-- The read of a program at the address its directory gives (R180). -/
theorem readProgram_of_address {img : Image} {flash : List Byte} {n address : Nat} (h : img.directory[n]? = some address) :
    img.readProgram flash n =
      if address + 43 ≤ flash.length ∧ crcGood (bytesFrom flash address 43) = true then some (programOf (bytesFrom flash address 43))
      else none := by
  simp only [Image.readProgram, h, readProgram, Bool.and_eq_true, decide_eq_true_eq]
  rfl

/-- Settles O8: the two reads by their own conditions. -/
theorem programBlockReads : Obligations.ProgramBlockReads := by
  refine ⟨fun s flash img hr hq hl himg hdir => ?_, fun s flash img b n address hr hq himg hread haddress => ?_⟩
  · have hexec : exec (.defaultProgramReadStart flash) s = .next (defaultReadStart flash s) := exec_quiet rfl hr hq
    rw [hexec]
    simp only [defaultReadStart, hl, himg, defaultNumber_eq img hdir, if_true]
  · have hexec : exec (.programReadComplete flash) s = .next (programReadComplete flash s) := exec_quiet rfl hr hq
    have hinstalled : s.image? = some img := by simp [State.image?, himg]
    refine ⟨_, hexec, ?_⟩
    simp only [programReadComplete, hread, hinstalled, readProgram_of_address haddress]
    by_cases hgood : address + 43 ≤ flash.length ∧ crcGood (bytesFrom flash address 43) = true
    · simp only [if_pos hgood]
      cases b <;> exact ⟨rfl, ⟨rfl, rfl, rfl⟩, rfl, rfl⟩
    · simp only [if_neg hgood]
      cases b <;> exact ⟨rfl, ⟨rfl, rfl, rfl⟩, rfl, rfl⟩

end Sys2Proof.Machine

/-!
Admission to the transmit queue, and the sending of its head (R143, R145 to R150, R152, R153). O28 to O31.
-/

namespace Sys2Proof.Machine

/-! ### Admission -/

/-- A queued record that an admission replaces in place: the NOTE record of the tag, or the CLAIM of the rank (R146, R147). -/
def Record.same (r x : Record) : Bool :=
  match r with
  | .noteStart t _ _ _ => x.isNote t
  | .noteEnd t => x.isNote t
  | .claim q _ _ => x.isClaim q
  | _ => false

theorem Line.enqueue_replaces {l : Line} {r : Record} (hl : l.state = .active) (hheld : r.isHeld = false) (hroster : r ≠ .roster) :
    l.enqueue r = l.replaceOrJoin r.same r := by
  cases r with
  | noteStart => exact if_pos hl
  | noteEnd => exact if_pos hl
  | claim => exact if_pos hl
  | held => cases hheld
  | roster => exact absurd rfl hroster

theorem Line.enqueue_held {l : Line} {r : Record} (hl : l.state = .active) (hheld : r.isHeld = true) :
    l.enqueue r = if l.queue.length < Config.queueLimit then { l with queue := joinClass (Queued.fresh r) l.queue }
      else { l with heldDropped := countUp l.heldDropped } := by
  cases r with
  | held => exact if_pos hl
  | _ => cases hheld

theorem Line.enqueue_roster {l : Line} (hl : l.state = .active) : l.enqueue .roster =
    if l.holds Record.isRoster then { l with rosterTimer := none } else { l with rosterTimer := none }.join .roster :=
  if_pos hl

theorem Line.holds_false {l : Line} {p : Record → Bool} (h : ∀ y ∈ l.queue, p y.record = false) : l.holds p = false := by
  simp only [Line.holds, List.any_eq_false]
  exact fun y hy => by rw [h y hy]; nofun

/-- The records of the queue below or of a record's class stand before it, the others behind it (R145). -/
theorem joinClass_last {x : Queued} {q : List Queued} (h : ∀ y ∈ q, y.record.cls ≤ x.record.cls) : joinClass x q = q ++ [x] := by
  induction q with
  | nil => rfl
  | cons y q ih =>
    rw [joinClass, if_pos (h y List.mem_cons_self), ih fun z hz => h z (List.mem_cons_of_mem _ hz)]
    rfl

theorem Record.cls_le (r : Record) : r.cls ≤ 3 := by cases r <;> simp [Record.cls]

theorem joinClass_roster (q : List Queued) : joinClass (Queued.fresh .roster) q = q ++ [Queued.fresh .roster] :=
  joinClass_last fun y _ => y.record.cls_le

theorem isRoster_eq (r : Record) : r.isRoster = decide (r = .roster) := by cases r <;> rfl

theorem Line.join_of_room {l : Line} (h : l.queue.length < 16) (r : Record) :
    l.join r = { l with queue := joinClass (Queued.fresh r) l.queue } := if_pos h

theorem Line.join_of_full {l : Line} (h : l.queue.length = 16) (r : Record) : l.join r =
    { l with queue := joinClass (Queued.fresh r) (evictHeld l.queue), heldDropped := countUp l.heldDropped } :=
  if_neg (by simp [h, Config.queueLimit])

/-- A ROSTER admitted: nothing new where one is queued, else the last of the queue (R148, R149). -/
theorem Line.enqueue_roster_of_queued {l : Line} (hl : l.state = .active) (h : ∃ y ∈ l.queue, y.record = .roster) :
    l.enqueue .roster = { l with rosterTimer := none } := by
  obtain ⟨y, hy, hr⟩ := h
  rw [Line.enqueue_roster hl, if_pos]
  simp only [Line.holds, List.any_eq_true]
  exact ⟨y, hy, by rw [hr]; rfl⟩

theorem Line.enqueue_roster_joins {l : Line} (hl : l.state = .active) (h : ∀ y ∈ l.queue, y.record ≠ .roster) :
    l.enqueue .roster = { l with rosterTimer := none }.join .roster := by
  rw [Line.enqueue_roster hl, if_neg]
  rw [Line.holds_false fun y hy => by rw [isRoster_eq]; exact decide_eq_false (h y hy)]
  nofun

theorem Line.enqueue_roster_of_room {l : Line} (hl : l.state = .active) (h : ∀ y ∈ l.queue, y.record ≠ .roster)
    (hroom : l.queue.length < 16) :
    l.enqueue .roster = { l with rosterTimer := none, queue := l.queue ++ [Queued.fresh .roster] } := by
  rw [Line.enqueue_roster_joins hl h, Line.join_of_room (l := { l with rosterTimer := none }) hroom, joinClass_roster]

/-- Settles O29: the admission of each kind of record, by the room in the queue. -/
theorem admissionReplacesOrJoins : Obligations.AdmissionReplacesOrJoins := by
  refine ⟨fun l r hl => admit_of_not_active hl r, fun l r hl hheld hroster => ?_, fun l r hl hheld => ⟨fun hroom hsorted => ?_, fun hfull => ?_⟩,
    fun l hl => ⟨Line.enqueue_roster_of_queued hl, Line.enqueue_roster_of_room hl, fun before held after hq hno hfull hh hafter => ?_⟩⟩
  · intro same
    have hsame : ∀ x, same x = r.same x := fun x => by
      cases r <;> cases x <;> simp [same, Record.same, Record.isNote, Record.isClaim, eq_comm]
    simp only [hsame, Line.enqueue_replaces hl hheld hroster]
    refine ⟨fun before after y hq hy hbefore => ?_, fun hsorted hno hroom => ?_, fun before held after hq hno hfull hh hafter => ?_⟩
    · have hholds : l.holds r.same = true := by
        simp only [Line.holds, List.any_eq_true]
        exact ⟨y, by rw [hq]; simp, hy⟩
      rw [Line.replaceOrJoin, if_pos hholds, hq, replaceRecord_split r hy hbefore]
      rfl
    · rw [Line.replaceOrJoin, Line.holds_false hno, Line.join_of_room hroom]
      obtain ⟨before, after, hq, hbefore, hafter, heq⟩ := joinClass_split (Queued.fresh r) l.queue hsorted
      exact ⟨before, after, hq, hbefore, hafter, by rw [heq]; rfl⟩
    · rw [Line.replaceOrJoin, Line.holds_false hno, Line.join_of_full hfull, hq, evictHeld_split hh hafter]
      exact ⟨joinClass_perm _ _, rfl⟩
  · rw [Line.enqueue_held hl hheld, if_pos (show l.queue.length < Config.queueLimit from hroom)]
    obtain ⟨before, after, hq, hbefore, hafter, heq⟩ := joinClass_split (Queued.fresh r) l.queue hsorted
    have hcls : r.cls = 1 := by
      cases r with
      | held => rfl
      | _ => cases hheld
    exact ⟨before, after, hq, fun y hy => hcls ▸ hbefore y hy, fun y hy => hcls ▸ hafter y hy, by rw [heq]; rfl⟩
  · rw [Line.enqueue_held hl hheld, if_neg (by simpa [Config.queueLimit] using hfull)]
    rfl
  · rw [Line.enqueue_roster_joins hl hno, Line.join_of_full (l := { l with rosterTimer := none }) hfull, joinClass_roster]
    simp only [hq, evictHeld_split hh hafter]
    rfl

/-! ### The timers of the line -/

theorem enterActive_eq {s : State} (hq : s.line.queue = []) : enterActive s = { s with
    line := { s.line with state := .active, rosterTimer := none, queue := [Queued.fresh .roster] }
    panel := { s.panel with events := { s.panel.events with lineActive := .unmarked } } } := by
  have hadmit : Line.enqueue { s.line with state := .active, rosterTimer := none } .roster =
      { s.line with state := .active, rosterTimer := none, queue := [Queued.fresh .roster] } := by
    rw [Line.enqueue_roster_of_room rfl (by simp [hq]) (by simp [hq])]
    simp [hq]
  exact congrArg (fun l => { s with line := l, panel := { s.panel with events := { s.panel.events with lineActive := .unmarked } } }) hadmit

/-- Settles O28: each timer by the definition of its step. -/
theorem lineTimersExpire : Obligations.LineTimersExpire := by
  refine ⟨fun s c hr hc hq => ?_, fun s hr hstate htimer => ?_, fun s hr hstate htimer => ?_⟩
  · have hexec : exec c s = .next (enterActive s) := by
      obtain ⟨rfl, hstate, htimer⟩ | ⟨rfl, hstate, hcounter⟩ := hc
      · rw [exec_inside rfl hr rfl rfl]
        exact congrArg Host.Outcome.next (if_pos ⟨hstate, htimer.ge⟩)
      · rw [exec_inside rfl hr rfl rfl]
        exact congrArg Host.Outcome.next (if_pos ⟨hstate, hcounter⟩)
    refine ⟨_, hexec, ?_, ?_⟩
    · rw [enterActive_eq hq]
      exact attn_of_unmarked (e := .lineActive) rfl
    · rw [enterActive_eq hq]
      rfl
  · rw [exec_inside rfl hr rfl rfl]
    exact congrArg Host.Outcome.next (if_pos ⟨hstate, htimer.ge⟩)
  · have hdue : s.line.rosterDue = true := by simp [Line.rosterDue, htimer, hstate, Config.rosterBlocks]
    have hexec : exec .rosterTimerExpiry s = .next (enqueue .roster s) := by
      rw [exec_inside rfl hr rfl rfl]
      exact congrArg Host.Outcome.next (if_pos hdue)
    refine ⟨_, hexec, ?_, Line.enqueue_roster_of_queued hstate, Line.enqueue_roster_of_room hstate, rfl⟩
    show (s.line.enqueue .roster).rosterTimer = none
    rw [Line.enqueue_roster hstate, Line.join]
    split
    · rfl
    · split <;> rfl

/-! ### Sending -/

theorem mem_allEight (t : Fin 8) : t ∈ allEight := by fin_cases t <;> decide

theorem allEight_increasing : allEight.Pairwise (· < ·) := by decide

theorem rosterEntry_eq_some {s : State} {t : Fin 8} {e : RosterEntry} : s.rosterEntry t = some e ↔
    ∃ v, s.voice t = some v ∧ v.state = .sounding ∧
      e = { tag := t, note := v.note, role := v.role.onLine, levelClass := s.breath.levelClass } := by
  unfold State.rosterEntry
  cases s.voice t with
  | none => simp
  | some v => simp [Voice.sounding, eq_comm]

/-- A ROSTER lists the SOUNDING slots in tag order (R150). -/
theorem rosterContents_spec (s : State) : s.rosterContents.Pairwise (fun a b => a.tag < b.tag) ∧
    ∀ e : RosterEntry, e ∈ s.rosterContents ↔ ∃ v, s.voice e.tag = some v ∧ v.state = .sounding ∧ e.note = v.note ∧
      e.role = v.role.onLine ∧ e.levelClass = s.breath.levelClass := by
  constructor
  · rw [State.rosterContents, List.pairwise_filterMap]
    refine allEight_increasing.imp fun hlt e he f hf => ?_
    obtain ⟨-, -, -, rfl⟩ := rosterEntry_eq_some.1 he
    obtain ⟨-, -, -, rfl⟩ := rosterEntry_eq_some.1 hf
    exact hlt
  · intro e
    simp only [State.rosterContents, List.mem_filterMap, rosterEntry_eq_some]
    constructor
    · rintro ⟨t, -, v, hv, hs, rfl⟩
      exact ⟨v, hv, hs, rfl, rfl, rfl⟩
    · rintro ⟨v, hv, hs, hn, hr, hc⟩
      refine ⟨e.tag, mem_allEight _, v, hv, hs, ?_⟩
      rw [← hn, ← hr, ← hc]

/-- Settles O30: the head record is marked, and its contents are those of its kind. -/
theorem transmitStartTakesHead : Obligations.TransmitStartTakesHead := by
  intro s head rest hr hq hstate hqueue hidle
  have hexec : exec .transmitStart s = .next (transmitStart s) := exec_quiet rfl hr hq
  refine ⟨_, s.payloadOf head.record, hexec, ?_, ?_⟩
  · simp only [transmitStart, hqueue, hidle, hstate, if_true]
  · cases head.record with
    | roster => exact ⟨_, rfl, rosterContents_spec s⟩
    | _ => rfl

theorem headerByte_toNat (st : Fin 8) (p : Payload) : (headerByte st p).toNat = 64 * p.cls + 8 * st.val + p.kind := by
  have hst := st.isLt
  have hp : p.cls ≤ 3 ∧ p.kind ≤ 5 := by cases p <;> simp [Payload.cls, Payload.kind]
  simp only [headerByte, BitVec.toNat_ofNat]
  omega

/-- Settles O31: a header reads as a number whose digits are class, station and kind. -/
theorem arbitrationFollowsHeader : Obligations.ArbitrationFollowsHeader := by
  refine ⟨fun s winner p hr hq hp hlow => ?_, fun a b p q => ?_⟩
  · have hexec : exec (.arbitrationLost winner) s = .next (arbitrationLost winner s) := exec_quiet rfl hr hq
    rw [hexec]
    simp only [arbitrationLost, hp, hlow, if_true]
    rfl
  · have ha := a.isLt
    have hb := b.isLt
    have hp : p.kind < 8 := by cases p <;> simp [Payload.kind]
    have hq : q.kind < 8 := by cases q <;> simp [Payload.kind]
    rw [headerByte_toNat, headerByte_toNat, Fin.lt_def, Fin.ext_iff]
    omega

end Sys2Proof.Machine

/-!
Errors and completions of the own frame, and a duplicate station (R104, R106, R138, R140, R151, R154, R155). O32, O33 and O35.
-/

namespace Sys2Proof.Machine

/-! ### Leaving ACTIVE -/

/-- A QUEUED rank's record as LOCAL_PENDING (R105, R106). -/
def Rank.madeLocal (k : Rank) : Rank := if k.stage = .queued then { k with stage := .localPending, localDue := false } else k

theorem setRank_rank_self (r : Fin 3) (s : State) : setRank r (s.rank r) s = s := by
  unfold setRank State.rank
  fin_cases r <;> rfl

theorem makeLocal_eq (r : Fin 3) (s : State) : makeLocal r s = setRank r (s.rank r).madeLocal s := by
  unfold makeLocal Rank.madeLocal
  split
  · rfl
  · rw [setRank_rank_self]

/-- Every QUEUED rank LOCAL_PENDING, and nothing else. -/
theorem makeLocalAll_eq (s : State) : allRanks.foldl (fun s r => makeLocal r s) s =
    { s with harmony := { s.harmony with ranks := s.harmony.ranks.map Rank.madeLocal } } := by
  simp only [allRanks, List.foldl_cons, List.foldl_nil, makeLocal_eq]
  rfl

theorem rank_map (s : State) (f : Rank → Rank) (r : Fin 3) :
    State.rank { s with harmony := { s.harmony with ranks := s.harmony.ranks.map f } } r = f (s.rank r) := by
  fin_cases r <;> rfl

theorem leaveActive_eq (dest : LineState) (s : State) : leaveActive dest s = { s with
    line := { s.line with state := dest, queue := [], underWay := none, rosterTimer := none }
    harmony := { s.harmony with ranks := s.harmony.ranks.map Rank.madeLocal } } := makeLocalAll_eq _

/-! ### Bit errors -/

/-- The state a bit error leaves before the record is looked at (R154). -/
def strike (s : State) : State :=
  { s with line := { s.line with
    errorCounter := min Config.errorMax (s.line.errorCounter + Config.errorRise), underWay := none, readingAbandoned := true } }

theorem bitError_eq {s : State} {p : Payload} (h : s.line.underWay = some p) : bitError s =
    if 96 ≤ min 255 (s.line.errorCounter + 8) then
      raise .lineListenOnly { leaveActive .listenOnly (strike s) with
        line := { (leaveActive .listenOnly (strike s)).line with decayTimer := 0 } }
    else abandonRecord (strike s) := by
  unfold bitError
  rw [h]
  rfl

theorem exec_bitError {s : State} {p : Payload} (hr : s.Running) (hq : s.Quiet) (h : s.line.underWay = some p)
    (hlow : s.line.errorCounter + 8 < 96) : exec .bitError s = .next (abandonRecord (strike s)) := by
  have hexec : exec .bitError s = .next (bitError s) := exec_quiet rfl hr hq
  rw [hexec, bitError_eq h, if_neg (by omega)]

theorem strike_eq {s : State} (hlow : s.line.errorCounter + 8 < 96) : strike s =
    { s with line := { s.line with errorCounter := s.line.errorCounter + 8, underWay := none, readingAbandoned := true } } := by
  have hmin : min Config.errorMax (s.line.errorCounter + Config.errorRise) = s.line.errorCounter + 8 := by
    simp only [Config.errorMax, Config.errorRise]; omega
  rw [strike, hmin]

theorem marked_of_split {l : Line} {before after : List Queued} {y : Queued} (hq : l.queue = before ++ y :: after)
    (hy : y.underWay = true) (hbefore : ∀ x ∈ before, x.underWay = false) : l.marked = some y := by
  rw [Line.marked, hq, List.find?_append, List.find?_eq_none.2 fun x hx => by rw [hbefore x hx]; nofun]
  simp [hy]

theorem dropMarked_of_split {before after : List Queued} {y : Queued} (hy : y.underWay = true)
    (hbefore : ∀ x ∈ before, x.underWay = false) (hafter : ∀ x ∈ after, x.underWay = false) :
    dropMarked (before ++ y :: after) = before ++ after := by
  have hkeep : ∀ l : List Queued, (∀ x ∈ l, x.underWay = false) → l.filter (fun x => !x.underWay) = l :=
    fun l h => List.filter_eq_self.2 fun x hx => by rw [h x hx]; rfl
  rw [dropMarked, List.filter_append, List.filter_cons_of_neg (by simp [hy]), hkeep before hbefore, hkeep after hafter]

theorem retryMarked_of_split {before after : List Queued} {y : Queued} (hy : y.underWay = true)
    (hbefore : ∀ x ∈ before, x.underWay = false) (hafter : ∀ x ∈ after, x.underWay = false) :
    retryMarked (before ++ y :: after) = before ++ { y with abandons := y.abandons + 1, underWay := false } :: after := by
  have hkeep : ∀ l : List Queued, (∀ x ∈ l, x.underWay = false) →
      l.map (fun y => if y.underWay then { y with abandons := y.abandons + 1, underWay := false } else y) = l := by
    intro l h
    refine (List.map_congr_left fun x hx => ?_).trans (List.map_id l)
    rw [h x hx]; rfl
  rw [retryMarked, List.map_append, List.map_cons, hkeep before hbefore, hkeep after hafter, hy]
  rfl

section
variable {s : State} {before after : List Queued} {y : Queued} (hqueue : s.line.queue = before ++ y :: after) (hy : y.underWay = true)
  (hbefore : ∀ x ∈ before, x.underWay = false) (hafter : ∀ x ∈ after, x.underWay = false)
include hqueue hy hbefore hafter

theorem abandonRecord_retries (h : y.abandons + 1 < 3) : abandonRecord s = { s with line := { s.line with
    queue := before ++ { y with abandons := y.abandons + 1, underWay := false } :: after } } := by
  have hfew : y.abandons + 1 < Config.abandonLimit := h
  simp only [abandonRecord, marked_of_split hqueue hy hbefore, hfew, if_true, hqueue, retryMarked_of_split hy hbefore hafter]

theorem abandonRecord_drops (h : ¬ y.abandons + 1 < 3) : abandonRecord s = recordDropped y.record { s with line := { s.line with
    queue := before ++ after, recordsDropped := countUp s.line.recordsDropped } } := by
  have hlast : ¬ y.abandons + 1 < Config.abandonLimit := h
  simp only [abandonRecord, marked_of_split hqueue hy hbefore, hlast, if_false, hqueue, dropMarked_of_split hy hbefore hafter]

end

theorem abandonRecord_of_none {s : State} (h : ∀ x ∈ s.line.queue, x.underWay = false) : abandonRecord s = s := by
  have hmarked : s.line.marked = none := List.find?_eq_none.2 fun x hx => by rw [h x hx]; nofun
  simp only [abandonRecord, hmarked]

/-- Settles O32: the counter decides between LISTEN_ONLY and the record, the record's abandonments between a retry and its drop. -/
theorem bitErrorAbandonsFrame : Obligations.BitErrorAbandonsFrame := by
  refine ⟨fun s p hr hq hp => ⟨fun hhigh => ?_, fun hlow before after y hqueue hy hbefore hafter hfew => ?_⟩,
    fun s p hr hq hp hlow hnone => ?_, fun s p before after y hr hq hp hlow hqueue hy hbefore hafter hlast => ?_⟩
  · have hexec : exec .bitError s = .next (bitError s) := exec_quiet rfl hr hq
    refine ⟨_, hexec, ?_⟩
    rw [bitError_eq hp, if_pos hhigh, leaveActive_eq]
    exact ⟨rfl, fun r => rank_map (strike s) Rank.madeLocal r, rfl⟩
  · rw [exec_bitError hr hq hp hlow, abandonRecord_retries (s := strike s) hqueue hy hbefore hafter hfew, strike_eq hlow]
  · rw [exec_bitError hr hq hp hlow, abandonRecord_of_none (s := strike s) hnone, strike_eq hlow]
  · have hdrop : exec .bitError s = .next (recordDropped y.record { s with line := { s.line with
        errorCounter := s.line.errorCounter + 8, underWay := none, readingAbandoned := true, queue := before ++ after,
        recordsDropped := countUp s.line.recordsDropped } }) := by
      rw [exec_bitError hr hq hp hlow, abandonRecord_drops (s := strike s) hqueue hy hbefore hafter (by omega), strike_eq hlow]
    refine ⟨_, hdrop, ?_⟩
    cases hrecord : y.record with
    | claim q k n =>
      simp only [recordDropped, makeLocal_eq]
      refine ⟨rfl, rfl, rfl, rfl, rfl, rfl, fun p k n hpq hstage => ?_, fun p hne => ?_, rfl, rfl, rfl⟩
      · obtain ⟨rfl, -⟩ := Record.claim.inj hpq
        exact (rank_setRank_same _ q _).trans (if_pos hstage)
      · have hpq : p ≠ q := fun h => by simp [Record.isClaim, h] at hne
        exact (rank_setRank _ p q _).trans (if_neg hpq)
    | roster => exact ⟨rfl, rfl, rfl, rfl, rfl, rfl, nofun, fun _ _ => rfl, rfl, rfl, rfl⟩
    | noteStart => exact ⟨rfl, rfl, rfl, rfl, rfl, rfl, nofun, fun _ _ => rfl, rfl, rfl, rfl⟩
    | noteEnd => exact ⟨rfl, rfl, rfl, rfl, rfl, rfl, nofun, fun _ _ => rfl, rfl, rfl, rfl⟩
    | held => exact ⟨rfl, rfl, rfl, rfl, rfl, rfl, nofun, fun _ _ => rfl, rfl, rfl, rfl⟩

/-! ### Own completions -/

/-- The tags of a list announced. -/
def announceAll (es : List RosterEntry) (s : State) : State := es.foldl (fun s e => setAnnounced e.tag true s) s

theorem announceAll_eq (es : List RosterEntry) (s : State) : announceAll es s = { s with slots := (announceAll es s).slots } ∧
    ∀ u, (announceAll es s).slot u =
      { s.slot u with announced := if es.any (fun e => decide (e.tag = u)) then true else (s.slot u).announced } := by
  induction es generalizing s with
  | nil => exact ⟨rfl, fun _ => rfl⟩
  | cons e es ih =>
    obtain ⟨hframe, hslot⟩ := ih (setAnnounced e.tag true s)
    refine ⟨hframe.trans rfl, fun u => (hslot u).trans ?_⟩
    rw [slot_setAnnounced]
    by_cases h : u = e.tag
    · subst h
      simp
    · simp [h, Ne.symm h]

theorem of_slots {s t : State} {l : Line} {w : Eight Slot} (h : t = { s with line := l, slots := w }) :
    t = { s with line := t.line, slots := t.slots, harmony := t.harmony } := by
  subst h
  rfl

/-- The lowest-numbered rank that a test names. -/
theorem find_allRanks (p : Fin 3 → Bool) : ∀ r, p r = true → (∀ q < r, p q = false) → allRanks.find? p = some r
  | 0, hr, _ => List.find?_cons_of_pos hr
  | 1, hr, hlower => (List.find?_cons_of_neg (by simp [hlower 0])).trans (List.find?_cons_of_pos hr)
  | 2, hr, hlower => (List.find?_cons_of_neg (by simp [hlower 0])).trans
      ((List.find?_cons_of_neg (by simp [hlower 1])).trans (List.find?_cons_of_pos hr))

theorem rankOfWindow {s : State} {k : Byte} {r : Fin 3} {c : Claim} (hstage : (s.rank r).stage = .queued)
    (hclaim : (s.rank r).claim = some c) (hnumber : c.number = k)
    (hfirst : ∀ q : Fin 3, q < r → (s.rank q).stage = .queued → ∀ d ∈ (s.rank q).claim, d.number ≠ k) :
    (allRanks.find? fun r => decide ((s.rank r).stage = .queued) && decide ((s.rank r).claim.map Claim.number = some k)) = some r := by
  refine find_allRanks _ r (by simp [hstage, hclaim, hnumber]) fun q hq => ?_
  simp only [Bool.and_eq_false_imp, decide_eq_true_eq, decide_eq_false_iff_not, Option.map_eq_some_iff, not_exists]
  exact fun hst d hd => hfirst q hq hst d hd.1 hd.2

theorem slot_setAnnounced_eq (s : State) (w u : Fin 8) (b : Bool) :
    (setAnnounced w b s).slot u = { s.slot u with announced := if u = w then b else (s.slot u).announced } := by
  rw [slot_setAnnounced]
  split
  · next h => rw [h]
  · rfl

/-- Settles O33: the contents decide what the completion hands on. -/
theorem ownCompletionActs : Obligations.OwnCompletionActs := by
  intro s p hr hq hp
  have hexec : exec .ownFrameComplete s = .next (ownCompletion p { s with line := { s.line with
      errorCounter := s.line.errorCounter - 1, queue := dropMarked s.line.queue, underWay := none } }) := by
    rw [exec_quiet rfl hr hq]
    show Host.Outcome.next (ownFrameComplete s) = _
    simp only [ownFrameComplete, hp]
  refine ⟨_, hexec, ?_⟩
  cases p with
  | noteStart w n role c => exact ⟨rfl, fun u => slot_setAnnounced_eq _ w u true, fun _ => rfl, nofun, rfl⟩
  | noteEnd w => exact ⟨rfl, fun u => slot_setAnnounced_eq _ w u false, fun _ => rfl, nofun, rfl⟩
  | held a k n reason => exact ⟨rfl, fun _ => rfl, fun _ => rfl, nofun, rfl⟩
  | roster es =>
    obtain ⟨hframe, hslot⟩ := announceAll_eq es { s with line := { s.line with
      errorCounter := s.line.errorCounter - 1, queue := dropMarked s.line.queue, underWay := none, rosterTimer := some 0 } }
    exact ⟨(congrArg State.line hframe).trans rfl, hslot, fun _ => (congrArg State.harmony hframe).trans rfl, nofun, of_slots (hframe.trans rfl)⟩
  | claim k n =>
    have hline : ∀ x : State, (openWindow k x).line = x.line ∧ (openWindow k x).slots = x.slots := fun x => by
      unfold openWindow
      split <;> exact ⟨rfl, rfl⟩
    refine ⟨(hline _).1, fun u => slot_congr (hline _).2 u, fun h => absurd rfl (h k n), fun k' n' h => ?_, ?_⟩
    · obtain ⟨rfl, rfl⟩ := Payload.claim.inj h
      refine ⟨fun hnone => ?_, fun r c hstage hclaim hnumber hfirst => ?_⟩
      · simp only [ownCompletion, openWindow]
        rw [List.find?_eq_none.2]
        intro r _
        simp only [Bool.and_eq_true, decide_eq_true_eq, Option.map_eq_some_iff, not_and, not_exists]
        exact fun hstage c hc => hnone r hstage c hc
      · have hfind := rankOfWindow (s := { s with line := { s.line with
          errorCounter := s.line.errorCounter - 1, queue := dropMarked s.line.queue, underWay := none } }) hstage hclaim hnumber hfirst
        simp only [ownCompletion, openWindow]
        rw [hfind]
        rfl
    · simp only [ownCompletion, openWindow]
      split <;> rfl

/-! ### A duplicate station -/

theorem duplicateFrame_of_own {s : State} {frame : List Byte} {f : LineFrame} (hline : s.line.state ≠ .disabled)
    (hgood : verdict frame = .good f) (hown : f.station = s.power.station) : duplicateFrame frame s =
      if s.line.state = .active then leaveActive .duplicateHold (raise .duplicateStation (frameOver s))
      else { raise .duplicateStation (frameOver s) with
        line := { (frameOver s).line with state := .duplicateHold } } := by
  have hreceives : s.receives = true := decide_eq_true hline
  have hstate : (frameOver s).line.state = s.line.state := rfl
  simp only [duplicateFrame, hgood, hreceives, hown]
  cases h : s.line.state <;> simp [hstate, h]

/-- Settles O35: ACTIVE is left as for any other state, and outside it the line state alone moves. -/
theorem duplicateFrameHoldsLine : Obligations.DuplicateFrameHoldsLine := by
  intro s frame f hr hq hline hgood hown
  have hexec : exec (.duplicateFrame frame) s = .next (duplicateFrame frame s) := exec_quiet rfl hr hq
  refine ⟨_, hexec, ?_⟩
  rw [duplicateFrame_of_own hline hgood hown]
  by_cases hactive : s.line.state = .active
  · rw [if_pos hactive, leaveActive_eq]
    exact ⟨rfl, attn_of_unmarked (e := .duplicateStation) rfl, rfl, rfl, rfl,
      fun _ => ⟨rfl, rfl, rfl, fun r => rank_map s Rank.madeLocal r⟩, fun h => absurd hactive h, rfl⟩
  · rw [if_neg hactive]
    exact ⟨rfl, attn_of_unmarked (e := .duplicateStation) rfl, rfl, rfl, rfl, fun h => absurd h hactive, fun _ => ⟨rfl, rfl⟩, rfl⟩

end Sys2Proof.Machine

/-!
Claims decided, given up and planned (R57, R58, R60, R99 to R103, R105, R107 to R109). O25, O26 and O27.
-/

namespace Sys2Proof.Machine

/-! ### Withdrawals -/

theorem setRank_setRank (r : Fin 3) (x y : Rank) (s : State) : setRank r y (setRank r x s) = setRank r y s := by
  unfold setRank
  fin_cases r <;> rfl

/-- A rank's slot released in WITHDRAW mode, the rank's own record not yet touched (R58, R60). -/
def withdrawn (r : Fin 3) (s : State) : State :=
  match s.rankTag r with
  | some t => releaseSlot (.releasingWithdraw none) t s
  | none => s

theorem withdrawn_harmony (r : Fin 3) (s : State) : (withdrawn r s).harmony = s.harmony := by
  unfold withdrawn
  split
  · exact releaseSlot_harmony _ _ s
  · rfl

theorem withdraw_eq (r : Fin 3) (s : State) : withdraw r s = setRank r { s.rank r with slot := none } (withdrawn r s) := by
  rw [← rank_congr (withdrawn_harmony r s) r]
  rfl

theorem exhaust_eq (r : Fin 3) (s : State) : exhaust r s =
    setRank r { s.rank r with stage := .exhausted, claim := none, slot := none, localDue := false } (withdrawn r s) := by
  unfold exhaust
  rw [withdraw_eq]
  show setRank r { (setRank r _ (withdrawn r s)).rank r with stage := .exhausted, claim := none, localDue := false }
    (setRank r _ (withdrawn r s)) = _
  rw [rank_setRank_same, setRank_setRank]

theorem giveUp_eq (r : Fin 3) (s : State) : giveUp r s =
    setRank r { s.rank r with stage := .idle, claim := none, slot := none, localDue := false }
      (removeRecords (Record.isClaim r) (withdrawn r s)) := by
  unfold giveUp
  rw [withdraw_eq]
  show setRank r { (setRank r _ (withdrawn r s)).rank r with stage := .idle, claim := none, localDue := false }
    (setRank r _ (removeRecords (Record.isClaim r) (withdrawn r s))) = _
  rw [rank_setRank_same, setRank_setRank]

theorem withdrawn_of_no_tag {r : Fin 3} {s : State} (h : s.rankTag r = none) : withdrawn r s = s := by
  unfold withdrawn
  rw [h]

section
variable {r : Fin 3} {s : State} {u : Fin 8} {v : Voice} (h : s.rankTag r = some u) (hv : s.voice u = some v)
include h hv

/-- The line after a withdrawal's NOTE_END placement (R60). -/
theorem withdrawn_of_tag : withdrawn r s = { s with
    slots := s.slots.set u { s.slot u with voice := some { v with state := .releasingWithdraw none } }
    line :=
      let kept := { s.line with queue := s.line.queue.filter fun y => !y.record.isNoteStart u }
      if (s.slot u).announced = true ∨ s.line.announces u = true then kept.enqueue (.noteEnd u) else kept } := by
  unfold withdrawn
  rw [h]
  dsimp only
  rw [releaseSlot_of_active hv (active_of_rankTag h hv), placeNoteEnd_eq, announced_setVoice]
  rfl

theorem mem_withdrawn {y : Queued} (hy : y ∈ (withdrawn r s).line.queue) :
    y.record.isNoteStart u = false ∧ (y = Queued.fresh (.noteEnd u) ∨ y ∈ s.line.queue) := by
  unfold withdrawn at hy
  rw [h] at hy
  dsimp only at hy
  rw [releaseSlot_of_active hv (active_of_rankTag h hv)] at hy
  obtain ⟨hstart, hmem⟩ := mem_placeNoteEnd hy
  exact ⟨hstart, hmem⟩

theorem noteEnd_mem_withdrawn (ha : s.line.state = .active) (hann : (s.slot u).announced = true ∨ s.line.announces u = true) :
    Queued.fresh (.noteEnd u) ∈ (withdrawn r s).line.queue := by
  unfold withdrawn
  rw [h]
  dsimp only
  rw [releaseSlot_of_active hv (active_of_rankTag h hv)]
  refine noteEnd_mem_placeNoteEnd ha ?_
  rwa [announced_setVoice]

end

/-- A withdrawal moves slots and line. -/
theorem withdrawn_frame (r : Fin 3) (s : State) :
    withdrawn r s = { s with slots := (withdrawn r s).slots, line := (withdrawn r s).line } := by
  cases h : s.rankTag r with
  | none => rw [withdrawn_of_no_tag h]
  | some u =>
    obtain ⟨v, hv⟩ : ∃ v, s.voice u = some v := by
      unfold State.rankTag at h
      split at h
      · split at h
        · next v hv =>
          split at h
          · obtain rfl := Option.some.inj h
            exact ⟨v, hv⟩
          · cases h
        · cases h
      · cases h
    rw [withdrawn_of_tag h hv]

theorem rankTag_of_slot {s : State} {r : Fin 3} {u : Fin 8} {v : Voice} (hslot : (s.rank r).slot = some u) (hv : s.voice u = some v)
    (hactive : v.active = true) : s.rankTag r = some u := by
  simp only [State.rankTag, hslot, hv, hactive, if_true]

/-! ### The walk of a plan -/

/-- The four tests of R101. -/
theorem eligible_iff {s : State} {r : Fin 3} {n : Nat} : s.eligible r n = true ↔
    s.harmony.scale.getLsbD (((n : Int) - s.harmony.key) % 12).toNat = true ∧ (∀ e ∈ s.map.entries, e.note ≠ n) ∧
      (∀ u v, s.voice u = some v → v.releasing = false → v.note = n → v.role = .harmony r) ∧ n ∉ (s.rank r).refused := by
  have hlocal : s.heldLocally r n = false ↔
      ∀ u v, s.voice u = some v → v.releasing = false → v.note = n → v.role = .harmony r := by
    simp only [State.heldLocally, List.any_eq_false]
    constructor
    · intro h u v hv hrel hnote
      by_contra hrole
      exact h u (mem_allEight u) (by simp [hv, Voice.active, hrel, hnote, hrole])
    · intro h u _
      cases hv : s.voice u with
      | none => simp
      | some v =>
        simp only [Bool.and_eq_true, decide_eq_true_eq, Voice.active, Bool.not_eq_true', not_and, not_not]
        exact fun hx => h u v hv hx.1 hx.2
  simp only [State.eligible, State.inScale, Bool.and_eq_true, Bool.not_eq_true', hlocal, State.mapHolds, List.any_eq_false,
    decide_eq_true_eq, decide_eq_false_iff_not, and_assoc]

theorem walk_eq_none {s : State} {r : Fin 3} {lead : Nat} {intervals : List Int} (pos : Nat)
    (h : ∀ i ∈ intervals, ¬ (i ≠ 0 ∧ s.eligible r (fold ((lead : Int) + i)) = true)) : s.walk r lead intervals pos = none := by
  induction intervals generalizing pos with
  | nil => rfl
  | cons i rest ih =>
    rw [State.walk, if_neg (h i List.mem_cons_self)]
    exact ih _ fun j hj => h j (List.mem_cons_of_mem i hj)

theorem walk_eq_some {s : State} {r : Fin 3} {lead : Nat} {before after : List Int} {i : Int} (pos : Nat)
    (hbefore : ∀ j ∈ before, ¬ (j ≠ 0 ∧ s.eligible r (fold ((lead : Int) + j)) = true))
    (hi : i ≠ 0 ∧ s.eligible r (fold ((lead : Int) + i)) = true) :
    s.walk r lead (before ++ i :: after) pos = some (pos + before.length, fold ((lead : Int) + i)) := by
  induction before generalizing pos with
  | nil => exact if_pos hi
  | cons j rest ih =>
    rw [List.cons_append, State.walk, if_neg (hbefore j List.mem_cons_self), ih _ fun k hk => hbefore k (List.mem_cons_of_mem j hk),
      List.length_cons, Nat.add_right_comm, Nat.add_assoc]

/-- The number a claim takes is the first from the counter on that no other outstanding claim has (R99). -/
theorem advancePast_eq (used : List Byte) (fuel : Nat) (c : Byte) :
    ∃ k, k ≤ fuel ∧ advancePast used fuel c = c + BitVec.ofNat 8 k ∧ ∀ j < k, c + BitVec.ofNat 8 j ∈ used := by
  induction fuel generalizing c with
  | zero => exact ⟨0, Nat.le_refl 0, (BitVec.add_zero c).symm, nofun⟩
  | succ fuel ih =>
    by_cases hc : c ∈ used
    · obtain ⟨k, hk, heq, hused⟩ := ih (c + 1)
      refine ⟨k + 1, Nat.succ_le_succ hk, ?_, fun j hj => ?_⟩
      · rw [advancePast, if_pos hc, heq, BitVec.add_assoc]
        congr 1
        apply BitVec.eq_of_toNat_eq
        simp [Nat.add_comm]
      · cases j with
        | zero => rwa [show c + BitVec.ofNat 8 0 = c from BitVec.add_zero c]
        | succ j =>
          have hstep : c + BitVec.ofNat 8 (j + 1) = c + 1 + BitVec.ofNat 8 j := by
            rw [BitVec.add_assoc]
            congr 1
            apply BitVec.eq_of_toNat_eq
            simp [Nat.add_comm]
          rw [hstep]
          exact hused j (Nat.lt_of_succ_lt_succ hj)
    · exact ⟨0, Nat.zero_le _, by rw [advancePast, if_neg hc]; exact (BitVec.add_zero c).symm, nofun⟩

theorem claim_of_mem_usedNumbers {s : State} {r : Fin 3} {n : Byte} (h : n ∈ s.usedNumbers r) :
    ∃ (q : Fin 3) (c : Claim), q ≠ r ∧ (s.rank q).outstanding = true ∧ (s.rank q).claim = some c ∧ c.number = n := by
  obtain ⟨q, -, hq⟩ := List.mem_filterMap.1 h
  split at hq
  · cases hq
  · next hne =>
    split at hq
    · next ho =>
      obtain ⟨c, hc, rfl⟩ := Option.map_eq_some_iff.1 hq
      exact ⟨q, c, hne, ho, hc, rfl⟩
    · cases hq

/-- At most two other claims are outstanding, so that the third number from the counter on is free at the latest (R99). -/
theorem claimNumber_eq (s : State) (r : Fin 3) :
    ∃ k, k ≤ 2 ∧ s.claimNumber r = s.harmony.counter + BitVec.ofNat 8 k ∧ ∀ j < k, s.harmony.counter + BitVec.ofNat 8 j ∈ s.usedNumbers r := by
  obtain ⟨k, hk, heq, hused⟩ := advancePast_eq (s.usedNumbers r) 3 s.harmony.counter
  refine ⟨k, ?_, heq, hused⟩
  by_contra hlarge
  have hsub : ([0, 1, 2].map fun j => s.harmony.counter + BitVec.ofNat 8 j) ⊆ s.usedNumbers r := by
    intro x hx
    obtain ⟨j, hj, rfl⟩ := List.mem_map.1 hx
    exact hused j (by simp only [List.mem_cons, List.not_mem_nil, or_false] at hj; omega)
  have hnodup : ([0, 1, 2].map fun j => s.harmony.counter + BitVec.ofNat 8 j).Nodup := by
    simp
  have hlen := (hnodup.subperm hsub).length_le
  have htwo := usedNumbers_length s r
  simp only [List.length_map, List.length_cons, List.length_nil] at hlen
  omega

end Sys2Proof.Machine

/-!
The plan of a rank, the claim timers and a yield (R57, R98 to R103, R105, R107 to R113). O25, O26 and O27.
-/

namespace Sys2Proof.Machine

/-! ### Slot requests and claims -/

theorem allocate_line (role : Role) (note : Nat) (b : BankId) (o : Option Nat) (s : State) : (allocate role note b o s).2.line = s.line := by
  unfold allocate
  split
  · exact loadPending_line _
  · rfl

theorem requestSlot_line (r : Fin 3) (note : Nat) (b : BankId) (keep : Bool) (s : State) :
    (requestSlot r note b keep s).2.line = s.line := by
  unfold requestSlot
  split
  · unfold retarget
    dsimp only
    split <;> rfl
  · exact allocate_line _ _ _ _ _

/-- The state a claim's slot request sees: the claim number taken (R99). -/
abbrev State.numbered (s : State) (r : Fin 3) : State := { s with harmony := { s.harmony with counter := s.claimNumber r + 1 } }

/-- What a claim leaves of slots, line and the rank's slot (R99, R102). -/
theorem makeClaim_spec (r : Fin 3) (pos note : Nat) (b : BankId) (keep : Bool) (s : State) :
    (makeClaim r pos note b keep s).slots = (requestSlot r note b keep (s.numbered r)).2.slots ∧
    ((makeClaim r pos note b keep s).rank r).slot = (requestSlot r note b keep (s.numbered r)).1 ∧
    ((makeClaim r pos note b keep s).rank r).localDue = false ∧
    (makeClaim r pos note b keep s).line =
      if s.line.state = .active then s.line.enqueue (.claim r (s.claimNumber r) note) else s.line := by
  have hline := requestSlot_line r note b keep (s.numbered r)
  unfold makeClaim
  dsimp only
  by_cases h : s.line.state = .active
  · rw [hline, if_pos h, decide_eq_true h, if_pos rfl, if_pos rfl]
    refine ⟨rfl, congrArg Rank.slot (rank_setRank_same _ r _), congrArg Rank.localDue (rank_setRank_same _ r _), ?_⟩
    rw [admit_line, setRank_line, hline]
  · rw [hline, if_neg h, decide_eq_false h, if_neg Bool.false_ne_true]
    exact ⟨rfl, congrArg Rank.slot (rank_setRank_same _ r _), congrArg Rank.localDue (rank_setRank_same _ r _), hline⟩

theorem requestSlot_of_takes {r : Fin 3} {note : Nat} {b : BankId} {keep : Bool} {s : State} {u : Fin 8} (hu : s.Takes u)
    (h : keep = false ∨ s.rankTag r = none) : requestSlot r note b keep s =
      (some u, loadPending (setSlot u ((s.slot u).start (s.newVoice (.harmony r) note b none)) s)) := by
  have hnone : (if keep = true then s.rankTag r else none) = none := by
    split
    · next hk => exact h.resolve_left (by rw [hk]; nofun)
    · rfl
  simp only [requestSlot, hnone, allocate, allocationTag_eq_some_iff.2 hu]

theorem requestSlot_of_tag {r : Fin 3} {note : Nat} {b : BankId} {s : State} {u : Fin 8} {v : Voice} (hu : s.rankTag r = some u)
    (hv : s.voice u = some v) : requestSlot r note b true s =
      (some u, setVoice u (some { v with state := .provisional, note := note, baseTarget := 1000 * note }) s) := by
  simp only [requestSlot, hu, if_true, retarget, hv]

/-! ### The plan -/

theorem plan_of_none {s : State} {r : Fin 3} {start : Nat} {keep : Bool} {lead : Voice} (hl : s.leadVoice = some lead)
    (h : s.walk r lead.note (((s.programOfBank lead.bank).rankPrograms.get r).intervals.drop start) start = none) :
    plan r start keep s = exhaust r s := by
  simp only [plan, hl, h]

theorem plan_of_some {s : State} {r : Fin 3} {start : Nat} {keep : Bool} {lead : Voice} {pos note : Nat} (hl : s.leadVoice = some lead)
    (h : s.walk r lead.note (((s.programOfBank lead.bank).rankPrograms.get r).intervals.drop start) start = some (pos, note)) :
    plan r start keep s = makeClaim r pos note lead.bank keep s := by
  simp only [plan, hl, h]

/-- EXHAUSTED with a withdrawal of the slot still held, and nothing else (R58, R60, R103). -/
theorem exhaust_frame (r : Fin 3) (s : State) : exhaust r s = { s with
    slots := (exhaust r s).slots
    line := (exhaust r s).line
    harmony := { s.harmony with
      ranks := s.harmony.ranks.set r { s.rank r with stage := .exhausted, claim := none, slot := none, localDue := false } } } := by
  rw [exhaust_eq, withdrawn_frame]
  rfl

/-- Settles O25: the walk decides between the claim of the first eligible candidate and EXHAUSTED. -/
theorem planClaimsFirstEligible : Obligations.PlanClaimsFirstEligible := by
  intro s r start keep lead hlead intervals note ok t
  have hok : ∀ i, ok i ↔ (i ≠ 0 ∧ s.eligible r (fold ((lead.note : Int) + i)) = true) := fun i => by
    rw [eligible_iff]
  refine ⟨fun hnone => ?_, fun before after i hsplit hbefore hi => ?_, fun q hq => plan_rank_other hq start keep s⟩
  · have ht : t = exhaust r s := plan_of_none hlead (walk_eq_none start fun i hi => by rw [← hok]; exact hnone i hi)
    have hrank : t.rank r = { s.rank r with stage := .exhausted, claim := none, slot := none, localDue := false } := by
      rw [ht, exhaust_rank, if_pos rfl]
    have hslots : t.slots = (withdrawn r s).slots := by rw [ht, exhaust_eq, setRank_slots]
    have hline : t.line = (withdrawn r s).line := by rw [ht, exhaust_eq, setRank_line]
    rw [hrank, hslots, hline]
    refine ⟨rfl, rfl, rfl, rfl, rfl, ?_, ?_, fun htag => ?_, fun u v htag hv => ⟨?_, ?_, ?_, ?_⟩⟩
    · rw [ht, exhaust_frame]
    · rw [← hslots, ← hline, ht]
      exact exhaust_frame r s
    · rw [withdrawn_of_no_tag htag]
      exact ⟨rfl, rfl⟩
    · rw [withdrawn_of_tag htag hv]
    · exact fun y hy => (mem_withdrawn htag hv hy).1
    · exact fun ha hann => ⟨_, noteEnd_mem_withdrawn htag hv ha hann, rfl⟩
    · rw [withdrawn_of_tag htag hv]
  · have ht : t = makeClaim r (start + before.length) (note i) lead.bank keep s := plan_of_some hlead (by
      show s.walk r lead.note (intervals.drop start) start = _
      rw [hsplit]
      exact walk_eq_some start (fun j hj => by rw [← hok]; exact hbefore j hj) ((hok i).1 hi))
    obtain ⟨hclaim, hstage, hposition, hrefused, hage, hcounter, -⟩ :=
      makeClaim_rank r (start + before.length) (note i) lead.bank keep s
    obtain ⟨hslots, hslot, hdue, hline⟩ := makeClaim_spec r (start + before.length) (note i) lead.bank keep s
    rw [← ht] at hclaim hstage hposition hrefused hage hcounter hslots hslot hdue hline
    obtain ⟨k, hk, hnumber, hused⟩ := claimNumber_eq s r
    refine ⟨s.claimNumber r, hclaim, hcounter, fun q hq hout c hc hn => ?_,
      ⟨k, hk, hnumber, fun j hj => claim_of_mem_usedNumbers (hused j hj)⟩, hposition, hrefused,
      fun u hu hkeep => ?_, fun u v hkeep htag hv => ?_, fun ha => ⟨?_, hage, ?_⟩, fun ha => ⟨?_, hdue, ?_⟩⟩
    · exact claimNumber_fresh s r (hn ▸ mem_usedNumbers hq hout hc)
    · have hreq := requestSlot_of_takes (r := r) (note := note i) (b := lead.bank) (keep := keep) (s := s.numbered r) (u := u) hu hkeep
      rw [hreq] at hslots hslot
      have hset : ∀ w, t.slot w = if w = u then (s.slot u).start ((s.numbered r).newVoice (.harmony r) (note i) lead.bank none)
          else s.slot w := fun w => by
        rw [slot_congr (hslots.trans (loadPending_slots _)) w, slot_setSlot]
        rfl
      refine ⟨hslot, fun w hw => by rw [hset, if_neg hw],
        (s.numbered r).newVoice (.harmony r) (note i) lead.bank none, by rw [hset, if_pos rfl]; rfl, rfl, rfl, rfl, rfl, rfl, rfl, rfl⟩
    · subst hkeep
      have hreq := requestSlot_of_tag (note := note i) (b := lead.bank) (s := s.numbered r) htag hv
      rw [hreq] at hslots hslot
      exact ⟨hslot, hslots⟩
    · rw [hstage, if_pos ha]
    · exact ⟨_, by rw [hline, if_pos ha]; exact Line.fresh_mem_admit ha rfl rfl, rfl⟩
    · rw [hstage, if_neg ha]
    · rw [hline, if_neg ha]

/-! ### The claim timers -/

theorem mapHolds_eq_true {s : State} {n : Nat} : s.mapHolds n = true ↔ ∃ e ∈ s.map.entries, e.note = n := by
  simp [State.mapHolds]

/-- A confirmation of a claim whose slot holds a PROVISIONAL voice (R57, R107). -/
theorem confirm_eq {r : Fin 3} {s : State} {u : Fin 8} {v : Voice} (hslot : (s.rank r).slot = some u) (hv : s.voice u = some v)
    (hstate : v.state = .provisional) : confirm r s =
      enqueue (.noteStart u v.note v.role.onLine s.breath.levelClass)
        (setVoice u (some { v with state := .sounding }) (setRank r { s.rank r with stage := .sounding, localDue := false } s)) := by
  have hactive : v.active = true := by simp [Voice.active, Voice.releasing, hstate]
  have htag : (setRank r { s.rank r with stage := .sounding, localDue := false } s).rankTag r = some u :=
    rankTag_of_slot ((congrArg Rank.slot (rank_setRank_same s r _)).trans hslot) hv hactive
  have hvoice : (setRank r { s.rank r with stage := .sounding, localDue := false } s).voice u = some v := hv
  simp only [confirm, htag, hvoice, queueNoteStart]
  rw [voice_setVoice, if_pos rfl]
  rfl

/-- Settles O26: the stale claim by its definition, the two confirmations by the one equation of `confirm`. -/
theorem claimTimersDecide : Obligations.ClaimTimersDecide := by
  refine ⟨fun s r hr hstage hage => ?_, fun s r c k u v hr hcase hclaim hslot hv hstate => ?_⟩
  · have hexec : exec (.staleClaim r) s = .next (staleClaim r s) := exec_inside rfl hr rfl rfl
    have hlimit : Config.staleAge ≤ (s.rank r).queuedAge := by rw [hage]; exact Nat.le_refl 10
    rw [hexec, staleClaim, if_pos ⟨hstage, hlimit⟩, makeLocal,
      if_pos (show ((removeRecords (Record.isClaim r) s).rank r).stage = .queued from hstage)]
    rfl
  · have hexec : exec c s = .next (confirm r s) := by
      obtain ⟨rfl, hstage, hage⟩ | ⟨rfl, hstage, hdue, hsettle, hmap⟩ := hcase
      · have hlimit : Config.windowAge ≤ (s.rank r).windowAge := by rw [hage]; exact Nat.le_refl 4
        have hinside : exec (.claimConfirm r) s = .next (claimConfirm r s) := exec_inside rfl hr rfl rfl
        rw [hinside, claimConfirm, if_pos ⟨hstage, hlimit⟩]
      · have hsteady : exec (.localResolution r) s = .next (localResolution r s) := exec_steady rfl hr rfl hsettle
        have hfree : ¬ s.mapHolds k.note = true := fun h => by
          obtain ⟨e, he, hn⟩ := mapHolds_eq_true.1 h
          exact hmap e he hn
        rw [hsteady, localResolution, if_pos ⟨hstage, hdue⟩, hclaim]
        simp only [if_neg hfree]
    refine ⟨_, hexec, ?_⟩
    rw [confirm_eq hslot hv hstate]
    exact ⟨rfl, rfl, fun ha => ⟨_, Line.fresh_mem_admit ha rfl rfl, rfl⟩, 
      fun ha => admit_of_not_active ha (.noteStart u v.note v.role.onLine s.breath.levelClass), rfl⟩

/-! ### Yields -/

theorem leadTag_congr {s t : State} (h : ∀ u v, v.role = .lead ∧ v.sounding = true → (t.voice u = some v ↔ s.voice u = some v)) :
    t.leadTag = s.leadTag := by
  unfold State.leadTag
  congr 1
  funext u
  rw [Bool.eq_iff_iff]
  constructor
  · intro hx
    cases hv : t.voice u with
    | none => simp [hv] at hx
    | some v =>
      rw [hv] at hx
      rw [(h u v (by simpa using hx)).1 hv]
      exact hx
  · intro hx
    cases hv : s.voice u with
    | none => simp [hv] at hx
    | some v =>
      rw [hv] at hx
      rw [(h u v (by simpa using hx)).2 hv]
      exact hx

theorem leadVoice_congr {s t : State} (h : ∀ u v, v.role = .lead ∧ v.sounding = true → (t.voice u = some v ↔ s.voice u = some v)) :
    t.leadVoice = s.leadVoice := by
  have htag := leadTag_congr h
  unfold State.leadVoice
  rw [htag]
  cases hu : s.leadTag with
  | none => rfl
  | some u =>
    obtain ⟨v, hv, hrole, hstate⟩ := leadTag_eq_some hu
    exact ((h u v ⟨hrole, by simp [Voice.sounding, hstate]⟩).2 hv).trans hv.symm

/-- The state a yielding rank plans from: claim given up and its note refused (R109). -/
def yielded (r : Fin 3) (k : Claim) (s : State) : State :=
  setRank r { s.rank r with
    stage := .idle, claim := none, slot := none, localDue := false, refused := refuse k.note (s.rank r).refused }
    (removeRecords (Record.isClaim r) (withdrawn r s))

theorem yieldRank_eq {r : Fin 3} {s : State} {k : Claim} (h : (s.rank r).claim = some k) :
    yieldRank r s = plan r ((s.rank r).position + 1) false (yielded r k s) := by
  have hgive : setRank r { (giveUp r s).rank r with refused := refuse k.note ((giveUp r s).rank r).refused } (giveUp r s) = yielded r k s := by
    rw [giveUp_rank, if_pos rfl, giveUp_eq, setRank_setRank]
    rfl
  simp only [yieldRank, h]
  rw [hgive]

theorem yielded_rank (r q : Fin 3) (k : Claim) (s : State) : (yielded r k s).rank q = if q = r then { s.rank r with
    stage := .idle, claim := none, slot := none, localDue := false, refused := refuse k.note (s.rank r).refused } else s.rank q := by
  rw [yielded, rank_setRank]
  split
  · rfl
  · exact rank_congr (withdrawn_harmony r s) q

theorem yielded_frame (r : Fin 3) (k : Claim) (s : State) : yielded r k s = { s with
    slots := (withdrawn r s).slots
    line := { (withdrawn r s).line with queue := (withdrawn r s).line.queue.filter fun y => !y.record.isClaim r }
    harmony := { s.harmony with
      ranks := s.harmony.ranks.set r { s.rank r with
        stage := .idle, claim := none, slot := none, localDue := false, refused := refuse k.note (s.rank r).refused } } } := by
  rw [yielded, withdrawn_frame]
  rfl

/-- Where the intervals leave nothing to plan the rank is EXHAUSTED, with nothing more to give up (R103). -/
theorem plan_yielded_of_short {r : Fin 3} {s : State} {k : Claim} {lead : Voice} {start : Nat}
    (hlead : (yielded r k s).leadVoice = some lead)
    (hshort : ((s.programOfBank lead.bank).rankPrograms.get r).intervals.length ≤ start) :
    plan r start false (yielded r k s) = { yielded r k s with harmony := { (yielded r k s).harmony with
      ranks := (yielded r k s).harmony.ranks.set r { (yielded r k s).rank r with stage := .exhausted } } } := by
  have hprogram : (yielded r k s).programOfBank lead.bank = s.programOfBank lead.bank := by rw [yielded_frame]; rfl
  have hrank := yielded_rank r r k s
  rw [if_pos rfl] at hrank
  have htag : (yielded r k s).rankTag r = none := by simp only [State.rankTag, hrank]
  rw [plan_of_none hlead (by rw [hprogram, List.drop_eq_nil_of_le hshort]; rfl), exhaust_eq, withdrawn_of_no_tag htag, hrank]
  rfl

/-- A withdrawal of a harmony slot leaves the lead. -/
theorem yielded_leadVoice {r : Fin 3} (k : Claim) {s : State} (h : ∀ u v, s.rankTag r = some u → s.voice u = some v → v.role = .harmony r) :
    (yielded r k s).leadVoice = s.leadVoice := by
  refine leadVoice_congr fun u v hv => ?_
  show (withdrawn r s).voice u = some v ↔ _
  unfold withdrawn
  cases htag : s.rankTag r with
  | none => rfl
  | some w =>
    show (releaseSlot _ w s).voice u = some v ↔ _
    rw [releaseSlot_voice]
    split
    · next huw =>
      subst huw
      have hno : s.voice u ≠ some v := fun hx => by
        have hrole := h u v htag hx
        rw [hv.1] at hrole
        cases hrole
      refine ⟨fun hx => ?_, fun hx => absurd hx hno⟩
      obtain ⟨x, hx, hxv⟩ := Option.map_eq_some_iff.1 hx
      have hrole : v.role = x.role := by
        rw [← hxv]
        split <;> rfl
      rw [h u x htag hx, hv.1] at hrole
      cases hrole
    · rfl

/-- Settles O27: the state the rank plans from is the one given up, with the note refused. -/
theorem refusedClaimYields : Obligations.RefusedClaimYields := by
  refine ⟨fun s r k hr hsettle hstage hdue hclaim hmap => ?_, fun s r k u v lead hclaim hslot hv hrel hrole hlead => ?_⟩
  · have hexec : exec (.localResolution r) s = .next (localResolution r s) := exec_steady rfl hr rfl hsettle
    rw [hexec, localResolution, if_pos ⟨hstage, hdue⟩, hclaim]
    simp only [mapHolds_eq_true.2 hmap, if_true]
  · have htag : s.rankTag r = some u := rankTag_of_slot hslot hv (by rw [Voice.active, hrel]; rfl)
    have hlead' : (yielded r k s).leadVoice = some lead := (yielded_leadVoice k fun u' v' htag' hv' => by
      obtain rfl := Option.some.inj (htag.symm.trans htag')
      obtain rfl := Option.some.inj (hv.symm.trans hv')
      exact hrole).trans hlead
    have hqueue : ∀ y, y ∈ (yielded r k s).line.queue ↔ y ∈ (withdrawn r s).line.queue ∧ y.record.isClaim r = false := fun y => by
      rw [yielded_frame]
      simp
    refine ⟨yielded r k s, yieldRank_eq hclaim, ?_, ?_, fun q hq => by rw [yielded_rank, if_neg hq], fun y hy => ?_, fun ha hann => ?_,
      fun hann hnot y hy => ?_, ?_, fun hshort => ?_⟩
    · rw [yielded_frame, withdrawn_of_tag htag hv]
    · rw [yielded_rank, if_pos rfl]
      rfl
    · obtain ⟨hmem, hno⟩ := (hqueue y).1 hy
      exact ⟨hno, (mem_withdrawn htag hv hmem).1⟩
    · exact ⟨_, (hqueue _).2 ⟨noteEnd_mem_withdrawn htag hv ha hann, rfl⟩, rfl⟩
    · obtain ⟨hmem, -⟩ := (hqueue y).1 hy
      rw [withdrawn_of_tag htag hv] at hmem
      dsimp only at hmem
      rw [if_neg (by simp [hann, hnot])] at hmem
      exact List.mem_of_mem_filter hmem
    · rw [yielded_frame]
    · rw [yieldRank_eq hclaim]
      exact plan_yielded_of_short hlead' hshort

end Sys2Proof.Machine

/-!
Detectors that fire and the changes of the rank enables (R46, R96 to R98, R100). O17.
-/

namespace Sys2Proof.Machine

/-! ### DETECTOR_FIRE -/

/-- The lowest-numbered detector that a test names. -/
theorem find_allDetectors (p : Fin 4 → Bool) : ∀ d, p d = true → (∀ e < d, p e = false) → allDetectors.find? p = some d
  | 0, hd, _ => List.find?_cons_of_pos hd
  | 1, hd, hlower => (List.find?_cons_of_neg (by simp [hlower 0])).trans (List.find?_cons_of_pos hd)
  | 2, hd, hlower => (List.find?_cons_of_neg (by simp [hlower 0])).trans
      ((List.find?_cons_of_neg (by simp [hlower 1])).trans (List.find?_cons_of_pos hd))
  | 3, hd, hlower => (List.find?_cons_of_neg (by simp [hlower 0])).trans ((List.find?_cons_of_neg (by simp [hlower 1])).trans
      ((List.find?_cons_of_neg (by simp [hlower 2])).trans (List.find?_cons_of_pos hd)))

/-- The state with a detector unarmed (R43). -/
abbrev State.fired (s : State) (d : Fin 4) : State :=
  { s with detectors := s.detectors.set d { s.detectors.get d with armed := false } }

theorem exec_detectorFire {s : State} {d : Fin 4} {a : Action} (hr : s.Running) (hd : s.firing d = some a)
    (hlower : ∀ e, e < d → s.firing e = none) : exec .detectorFire s = .next (act d a (s.fired d)) := by
  have hnext : s.nextFiring = some d := find_allDetectors _ d (by rw [hd]; rfl) fun e he => by rw [hlower e he]; rfl
  have hexec : exec .detectorFire s = .next (fireNext s) := exec_inside rfl hr rfl rfl
  rw [hexec]
  simp only [fireNext, hnext, fireDetector, hd]

/-! ### Disable yields -/

theorem mem_withdrawn_queue {r : Fin 3} {s : State} {y : Queued} (h : y ∈ (withdrawn r s).line.queue) :
    y ∈ s.line.queue ∨ ∃ u, y = Queued.fresh (.noteEnd u) := by
  unfold withdrawn at h
  split at h
  · next u _ =>
    unfold releaseSlot at h
    split at h
    · split at h
      · obtain ⟨-, rfl | hmem⟩ := mem_placeNoteEnd h
        · exact .inr ⟨u, rfl⟩
        · exact .inl hmem
      · exact .inl h
    · exact .inl h
  · exact .inl h

theorem mem_giveUp_queue {r : Fin 3} {s : State} {y : Queued} (h : y ∈ (giveUp r s).line.queue) :
    y ∈ s.line.queue ∨ ∃ u, y = Queued.fresh (.noteEnd u) := by
  rw [giveUp_eq] at h
  exact mem_withdrawn_queue (List.mem_of_mem_filter h)

/-- A withdrawal leaves the RELEASING voices and the FREE slots; the voice of its own slot is RELEASING after it (R58). -/
theorem giveUp_voice (r : Fin 3) (s : State) (u : Fin 8) : (giveUp r s).voice u =
    if s.rankTag r = some u then (s.voice u).map fun v => if v.active then { v with state := .releasingWithdraw none } else v
    else s.voice u := by
  rw [giveUp_eq]
  show (withdrawn r s).voice u = _
  unfold withdrawn
  cases h : s.rankTag r with
  | none => rfl
  | some w =>
    show (releaseSlot (.releasingWithdraw none) w s).voice u = _
    rw [releaseSlot_voice]
    by_cases hu : u = w
    · subst hu
      rw [if_pos rfl, if_pos rfl]
    · rw [if_neg hu, if_neg fun hx => hu (Option.some.inj hx).symm]

/-- Every voice the slot holds is RELEASING. -/
abbrev State.Faded (s : State) (u : Fin 8) : Prop := ∀ v, s.voice u = some v → v.releasing = true

theorem faded_giveUp {s : State} {u : Fin 8} (h : s.Faded u) (r : Fin 3) : (giveUp r s).Faded u := by
  intro v hv
  rw [giveUp_voice] at hv
  split at hv
  · obtain ⟨w, hw, rfl⟩ := Option.map_eq_some_iff.1 hv
    split
    · rfl
    · exact h w hw
  · exact h v hv

theorem faded_giveUp_own {s : State} {u : Fin 8} {r : Fin 3} (h : s.rankTag r = some u) : (giveUp r s).Faded u := by
  intro v hv
  rw [giveUp_voice, if_pos h] at hv
  obtain ⟨w, -, rfl⟩ := Option.map_eq_some_iff.1 hv
  split
  · rfl
  · next hw => simpa [Voice.active] using hw

/-- Another rank's giving up leaves a rank its slot, or releases the voice in it. -/
theorem rankTag_giveUp {s : State} {u : Fin 8} {q r : Fin 3} (h : s.rankTag q = some u) (hq : q ≠ r) :
    (giveUp r s).rankTag q = some u ∨ (giveUp r s).Faded u := by
  by_cases hu : s.rankTag r = some u
  · exact .inr (faded_giveUp_own hu)
  · left
    have hrank : (giveUp r s).rank q = s.rank q := by rw [giveUp_rank, if_neg hq]
    have hvoice : ∀ w, (s.rank q).slot = some w → w = u := fun w hw => by
      unfold State.rankTag at h
      rw [hw] at h
      dsimp only at h
      split at h
      · split at h
        · exact Option.some.inj h
        · cases h
      · cases h
    unfold State.rankTag at h ⊢
    rw [hrank]
    cases hslot : (s.rank q).slot with
    | none => rw [hslot] at h; cases h
    | some w =>
      obtain rfl := hvoice w hslot
      rw [hslot] at h
      dsimp only at h ⊢
      rw [giveUp_voice, if_neg hu]
      exact h

/-- The disable yields of the ranks that a test names, in the order of a list (R98). -/
def disableAll (p : Fin 3 → Bool) (l : List (Fin 3)) (s : State) : State :=
  l.foldl (fun x r => if p r = true then disableYield r x else x) s

section
variable {p : Fin 3 → Bool} {l : List (Fin 3)} {s : State}

theorem disableAll_cons (r : Fin 3) : disableAll p (r :: l) s = disableAll p l (if p r = true then giveUp r s else s) := rfl

theorem disableAll_keeps {law : State → Prop} (hlaw : ∀ r x, law x → law (giveUp r x)) (h : law s) : law (disableAll p l s) :=
  foldl_keeps (fun x r hx => by
    split
    · exact hlaw r x hx
    · exact hx) l h

theorem disableAll_rank (q : Fin 3) : (disableAll p l s).rank q = if q ∈ l ∧ p q = true then
    { s.rank q with stage := .idle, claim := none, slot := none, localDue := false } else s.rank q := by
  induction l generalizing s with
  | nil => rfl
  | cons r l ih =>
    rw [disableAll_cons, ih]
    by_cases hp : p r = true
    · rw [if_pos hp, giveUp_rank]
      by_cases hqr : q = r
      · subst hqr
        simp [hp]
      · simp [hqr]
    · rw [if_neg hp]
      by_cases hqr : q = r
      · subst hqr
        simp [hp]
      · simp [hqr]

theorem disableAll_no_claim {q : Fin 3} (hq : q ∈ l) (hp : p q = true) : ∀ y ∈ (disableAll p l s).line.queue, y.record.isClaim q = false := by
  have hkeep : ∀ r x, (∀ y ∈ x.line.queue, y.record.isClaim q = false) → ∀ y ∈ (giveUp r x).line.queue, y.record.isClaim q = false := by
    intro r x hx y hy
    obtain hmem | ⟨u, rfl⟩ := mem_giveUp_queue hy
    · exact hx y hmem
    · rfl
  induction l generalizing s with
  | nil => cases hq
  | cons r l ih =>
    rw [disableAll_cons]
    by_cases hqr : q = r
    · subst hqr
      rw [if_pos hp]
      exact disableAll_keeps (law := fun x => ∀ y ∈ x.line.queue, y.record.isClaim q = false) hkeep fun y hy => giveUp_no_claim hy
    · exact ih ((List.mem_cons.1 hq).resolve_left hqr)

theorem disableAll_faded {q : Fin 3} {u : Fin 8} (hq : q ∈ l) (hp : p q = true) (h : s.rankTag q = some u ∨ s.Faded u) :
    (disableAll p l s).Faded u := by
  have hdone : ∀ {l : List (Fin 3)} {x : State}, x.Faded u → (disableAll p l x).Faded u := fun hx =>
    disableAll_keeps (law := fun x => x.Faded u) (fun r x hx => faded_giveUp hx r) hx
  induction l generalizing s with
  | nil => cases hq
  | cons r l ih =>
    rw [disableAll_cons]
    by_cases hqr : q = r
    · subst hqr
      rw [if_pos hp]
      exact hdone (h.elim faded_giveUp_own fun hx => faded_giveUp hx q)
    · refine ih ((List.mem_cons.1 hq).resolve_left hqr) ?_
      split
      · exact h.elim (fun hx => rankTag_giveUp hx hqr) fun hx => .inr (faded_giveUp hx r)
      · exact h

theorem disableAll_counter : (disableAll p l s).harmony.counter = s.harmony.counter :=
  disableAll_keeps (law := fun x => x.harmony.counter = s.harmony.counter) (fun r x hx => by
    rw [giveUp_eq, setRank_counter, removeRecords_harmony, withdrawn_harmony, hx]) rfl

theorem voiceWork_disableAll : VoiceWork s (disableAll p l s) :=
  disableAll_keeps (law := VoiceWork s) (fun r _ hx => hx.trans (voiceWork_giveUp r _)) (.refl s)

end

/-! ### Changes of the enables -/

theorem leadTag_giveUp_none {s : State} (h : s.leadTag = none) (r : Fin 3) : (giveUp r s).leadTag = none :=
  leadTag_none_of_leadsTo (withdraw_leadsTo r s) h

/-- Without a SOUNDING lead a change of enables makes disable yields and nothing else (R98, R100). -/
theorem changeEnables_of_no_lead {f : State → State} {s : State} (h : (f s).leadTag = none) :
    changeEnables f s = disableAll (fun r => s.enabled r && !(f s).enabled r) allRanks (f s) := by
  have hfold : ∀ (l : List (Fin 3)) (x : State), x.leadTag = none →
      l.foldl (fun acc r => enableChanged r (s.enabled r) ((f s).enabled r) acc) x =
        disableAll (fun r => s.enabled r && !(f s).enabled r) l x := by
    intro l
    induction l with
    | nil => exact fun _ _ => rfl
    | cons r l ih =>
      intro x hx
      rw [List.foldl_cons, disableAll_cons]
      have hstep : enableChanged r (s.enabled r) ((f s).enabled r) x =
          if (s.enabled r && !(f s).enabled r) = true then giveUp r x else x := by
        unfold enableChanged disableYield
        split
        · rfl
        · rw [if_neg (by simp [hx])]
      rw [hstep]
      refine ih _ ?_
      split
      · exact leadTag_giveUp_none hx r
      · exact hx
  exact hfold allRanks (f s) h

theorem leadVoice_of_no_tag {s : State} (h : s.leadTag = none) : s.leadVoice = none := by simp [State.leadVoice, h]

/-- The state with the master enable set (R96). -/
abbrev State.withMaster (s : State) (on : Bool) : State := { s with harmony := { s.harmony with master := on } }

/-- HARMONY_TOGGLE off: every enabled rank makes a disable yield (R46, R98). -/
theorem toggleHarmony_off {s : State} (h : s.harmony.master = true) :
    toggleHarmony s = disableAll s.enabled allRanks (s.withMaster false) := by
  have hoff : ∀ r, (s.withMaster false).enabled r = false := fun r => by simp [State.enabled]
  rw [toggleHarmony, changeEnables_eq]
  simp only [h, Bool.not_true, hoff, and_true, Bool.false_eq_true, and_false, if_false]
  rfl

/-- HARMONY_TOGGLE on: every rank now enabled plans from its kept position (R46, R98, R100). -/
theorem toggleHarmony_on {s : State} (h : s.harmony.master = false) : toggleHarmony s = allRanks.foldl
    (fun x r => if (s.withMaster true).enabled r = true then plan r (x.rank r).position false x else x) (s.withMaster true) := by
  have hoff : ∀ r, s.enabled r = false := fun r => by simp [State.enabled, h]
  rw [toggleHarmony, changeEnables_eq]
  simp only [h, Bool.not_false, hoff, Bool.false_eq_true, false_and, if_false, true_and]

/-- The state with a RANKS set taken (R97, R185). -/
abbrev State.withRanks (s : State) (set : BitVec 3) : State := { s with
  panel := { s.panel with waitRanks := none, ranksDue := false }
  harmony := { s.harmony with liveRanks := set } }

theorem exec_ranksTaken {s : State} {set : BitVec 3} (hr : s.Running) (hsettle : s.pitch.settleCount < 16)
    (hdue : s.panel.ranksDue = true) (hwait : s.panel.waitRanks = some set) : exec .ranksTaken s = .next (changeEnables
      (fun s => { s with harmony := { s.harmony with liveRanks := set } })
      { s with panel := { s.panel with waitRanks := none, ranksDue := false } }) := by
  have hsteady : exec .ranksTaken s = .next (takeRanks s) := exec_steady rfl hr rfl hsettle
  rw [hsteady]
  simp only [takeRanks, hdue, hwait, if_true]

/-- RANKS_TAKEN without a SOUNDING lead: the ranks whose enable ends make disable yields (R98). -/
theorem exec_ranksTaken_of_no_lead {s : State} {set : BitVec 3} (hr : s.Running) (hsettle : s.pitch.settleCount < 16)
    (hdue : s.panel.ranksDue = true) (hwait : s.panel.waitRanks = some set) (hlead : s.leadTag = none) : exec .ranksTaken s = .next
      (disableAll (fun r => s.enabled r && !(s.withRanks set).enabled r) allRanks (s.withRanks set)) := by
  rw [exec_ranksTaken hr hsettle hdue hwait]
  exact congrArg Host.Outcome.next (changeEnables_of_no_lead hlead)

theorem enabled_withRanks_of_no_lead {s : State} (set : BitVec 3) (hlead : s.leadTag = none) (r : Fin 3) :
    (s.withRanks set).enabled r = (s.harmony.master && set.getLsbD r.val) := by
  have hvoice : (s.withRanks set).leadVoice = none := leadVoice_of_no_tag hlead
  simp only [State.enabled, hvoice, Bool.and_true]

/-- A RANKS set ends the enable of an enabled rank exactly where its bit is clear (R97). -/
theorem enabled_withRanks_iff {s : State} (set : BitVec 3) {r : Fin 3} (hon : s.enabled r = true) :
    (s.withRanks set).enabled r = false ↔ set.getLsbD r.val = false := by
  obtain ⟨b, hbefore, hafter⟩ : ∃ b, s.enabled r = (s.harmony.master && s.harmony.liveRanks.getLsbD r.val && b) ∧
      (s.withRanks set).enabled r = (s.harmony.master && set.getLsbD r.val && b) := ⟨_, rfl, rfl⟩
  rw [hbefore, Bool.and_eq_true, Bool.and_eq_true] at hon
  obtain ⟨⟨hmaster, -⟩, hlead⟩ := hon
  rw [hafter, hmaster, hlead, Bool.true_and, Bool.and_true]

theorem mem_allRanks (r : Fin 3) : r ∈ allRanks := by fin_cases r <;> decide

/-- What disable yields leave of a rank (R98). -/
theorem disableAll_all {p : Fin 3 → Bool} {s : State} (r : Fin 3) :
    ((disableAll p allRanks s).rank r).refused = (s.rank r).refused ∧
    ((disableAll p allRanks s).rank r).position = (s.rank r).position ∧
    (p r = true → ((disableAll p allRanks s).rank r).stage = .idle ∧ ((disableAll p allRanks s).rank r).claim = none ∧
      ((disableAll p allRanks s).rank r).slot = none ∧
      (∀ y ∈ (disableAll p allRanks s).line.queue, y.record.isClaim r = false) ∧
      ∀ u v, s.rankTag r = some u → (disableAll p allRanks s).voice u = some v → v.releasing = true) ∧
    (p r = false → (disableAll p allRanks s).rank r = s.rank r) := by
  rw [disableAll_rank]
  refine ⟨by split <;> rfl, by split <;> rfl, fun hon => ?_, fun hoff => ?_⟩
  · rw [if_pos ⟨mem_allRanks r, hon⟩]
    exact ⟨rfl, rfl, rfl, disableAll_no_claim (mem_allRanks r) hon,
      fun u v htag => disableAll_faded (mem_allRanks r) hon (.inl htag) v⟩
  · rw [if_neg (by simp [hoff])]

theorem exec_toggle_off {s : State} {d : Fin 4} (hr : s.Running) (hd : s.firing d = some .harmonyToggle)
    (hlower : ∀ e, e < d → s.firing e = none) (hmaster : s.harmony.master = true) :
    exec .detectorFire s = .next (disableAll s.enabled allRanks ((s.fired d).withMaster false)) :=
  (exec_detectorFire hr hd hlower).trans (congrArg Host.Outcome.next (toggleHarmony_off (s := s.fired d) hmaster))

theorem exec_toggle_on {s : State} {d : Fin 4} (hr : s.Running) (hd : s.firing d = some .harmonyToggle)
    (hlower : ∀ e, e < d → s.firing e = none) (hmaster : s.harmony.master = false) :
    exec .detectorFire s = .next (allRanks.foldl
      (fun x r => if ((s.fired d).withMaster true).enabled r = true then plan r (x.rank r).position false x else x)
      ((s.fired d).withMaster true)) :=
  (exec_detectorFire hr hd hlower).trans (congrArg Host.Outcome.next (toggleHarmony_on (s := s.fired d) hmaster))

/-- RANKS_TAKEN in rank order (R98, R100). -/
theorem exec_ranksTaken_eq {s : State} {set : BitVec 3} (hr : s.Running) (hsettle : s.pitch.settleCount < 16)
    (hdue : s.panel.ranksDue = true) (hwait : s.panel.waitRanks = some set) : exec .ranksTaken s = .next
      (allRanks.foldl (fun x r =>
        if s.enabled r = true ∧ set.getLsbD r.val = false then disableYield r x
        else if s.enabled r = false ∧ (s.withRanks set).enabled r = true then plan r (x.rank r).position false x
        else x) (s.withRanks set)) := by
  rw [exec_ranksTaken hr hsettle hdue hwait, changeEnables_eq]
  refine congrArg Host.Outcome.next (congrArg (fun f => List.foldl f (s.withRanks set) allRanks) (funext fun x => funext fun r => ?_))
  exact if_congr (and_congr_right fun hon => enabled_withRanks_iff set hon) rfl rfl

/-- What one giving up leaves (R58, R60, R98). -/
theorem disableYield_leaves (s : State) (r : Fin 3) : disableYield r s = { s with
      slots := (disableYield r s).slots
      line := (disableYield r s).line
      harmony := { s.harmony with
        ranks := s.harmony.ranks.set r { s.rank r with stage := .idle, claim := none, slot := none, localDue := false } } } := by
  rw [disableYield, giveUp_eq, withdrawn_frame]
  rfl

/-- Settles O17: the rank-by-rank form of a change of enables, and the giving up of one rank. -/
theorem enableChangesYieldRanks : Obligations.EnableChangesYieldRanks := by
  refine ⟨fun s d hr hd hlower hmaster => ?_, fun s d hr hd hlower hmaster => ?_, fun s set hr hsettle hdue hwait => ⟨fun hlead => ?_,
    fun _ => exec_ranksTaken_eq hr hsettle hdue hwait⟩, fun s r => ?_⟩
  · refine ⟨_, exec_toggle_off hr hd hlower hmaster, voiceWork_disableAll.master, rfl, fun r => ?_⟩
    obtain ⟨hrefused, hposition, hon, hoff⟩ := disableAll_all (p := s.enabled) (s := (s.fired d).withMaster false) r
    refine ⟨hrefused, hposition, fun h => ?_, hoff⟩
    obtain ⟨hstage, hclaim, hslot, hqueue, hfaded⟩ := hon h
    exact ⟨hstage, hclaim, hslot, List.all_eq_true.2 fun y hy => by rw [hqueue y hy]; rfl, hfaded⟩
  · refine ⟨fun hlead => ?_, fun _ => exec_toggle_on hr hd hlower hmaster⟩
    rw [exec_toggle_on hr hd hlower hmaster, foldl_fixed _ _ _ fun r _ => ?_]
    split
    · exact plan_of_no_lead (leadVoice_of_no_tag hlead)
    · rfl
  · refine ⟨_, exec_ranksTaken_of_no_lead hr hsettle hdue hwait hlead, voiceWork_disableAll.liveRanks,
      congrArg Panel.waitRanks voiceWork_disableAll.panel, voiceWork_disableAll.master, disableAll_counter, fun r => ?_⟩
    obtain ⟨hrefused, hposition, hyields, hstays⟩ := disableAll_all (p := fun r => s.enabled r && !(s.withRanks set).enabled r)
      (s := s.withRanks set) r
    refine ⟨fun hon hbit => ?_, fun h => ?_⟩
    · obtain ⟨hstage, hclaim, hslot, hqueue, -⟩ := hyields (by rw [hon, (enabled_withRanks_iff set hon).2 hbit]; rfl)
      exact ⟨hstage, hclaim, hslot, hrefused, hposition, hqueue⟩
    · refine (hstays (Bool.eq_false_iff.2 fun hp => ?_)).trans rfl
      obtain ⟨hon, hoff⟩ := Bool.and_eq_true_iff.1 hp
      have hbit := (enabled_withRanks_iff set hon).1 (by simpa using hoff)
      rw [hon, hbit] at h
      simp at h
  · refine ⟨_, rfl, disableYield_leaves s r, fun y hy => giveUp_no_claim hy, fun htag => ?_,
      fun u v htag hv => ⟨?_, fun y hy => ?_, fun ha hann => ?_, ?_⟩⟩
    · rw [disableYield, giveUp_eq, withdrawn_of_no_tag htag]
      exact ⟨rfl, rfl⟩
    · rw [disableYield, giveUp_eq, withdrawn_of_tag htag hv]
      rfl
    · rw [disableYield, giveUp_eq] at hy
      exact (mem_withdrawn htag hv (List.mem_of_mem_filter hy)).1
    · refine ⟨Queued.fresh (.noteEnd u), ?_, rfl⟩
      rw [disableYield, giveUp_eq]
      exact List.mem_filter.2 ⟨noteEnd_mem_withdrawn htag hv ha hann, rfl⟩
    · rw [disableYield, giveUp_eq, withdrawn_of_tag htag hv]
      rfl

end Sys2Proof.Machine

/-!
Lead notes recomputed by a gesture or a taken setting (R11 to R13, R16, R45 to R48, R56, R73, R116, R185). O16 and O24.
-/

namespace Sys2Proof.Machine

/-! ### A recomputation -/

/-- What a recomputation leaves alone (R12, R13). -/
theorem recomputeLead_leaves (s : State) : VoiceWork { s with resolver := { s.resolver with leadNote := s.resolver.computeLead } }
    (recomputeLead s) := by
  unfold recomputeLead
  dsimp only
  split
  · next h =>
    rw [h]
    exact .refl s
  · exact voiceWork_deliverLeadChange _

/-- The folding of a lead note (R12). -/
theorem fold_spec (x : Int) : (fold x : Int) % 12 = x % 12 ∧ (0 ≤ x → x ≤ 127 → (fold x : Int) = x) ∧ (127 < x → 116 ≤ fold x) ∧
    (x < 0 → fold x < 12) := by
  unfold fold
  split
  · omega
  · split <;> omega

/-! ### The gestures -/

theorem gestureBit (set : BitVec 4) (d e : Fin 4) :
    (set ||| BitVec.ofNat 4 (2 ^ d.val)).getLsbD e.val = (set.getLsbD e.val || decide (e = d)) := by
  rw [BitVec.getLsbD_or]
  congr 1
  revert d e
  decide

theorem exec_octave {s : State} {d : Fin 4} {a : Action} {f : Int → Int} (hr : s.Running) (hd : s.firing d = some a)
    (hlower : ∀ e, e < d → s.firing e = none) (ha : ∀ x, act d a x = shiftOctave f x) : exec .detectorFire s = .next
      (recomputeLead { s.fired d with resolver := { s.resolver with octaveShift := f s.resolver.octaveShift } }) :=
  (exec_detectorFire hr hd hlower).trans (congrArg Host.Outcome.next (ha _))

/-- The octave actions: the shift moved, the lead note recomputed (R11, R12, R45). -/
theorem octave_spec {s : State} {d : Fin 4} {f : Int → Int} {t : State}
    (ht : t = recomputeLead { s.fired d with resolver := { s.resolver with octaveShift := f s.resolver.octaveShift } }) :
    t.resolver.octaveShift = f s.resolver.octaveShift ∧
    t.resolver.leadNote = fold (s.resolver.taken + 12 * t.resolver.octaveShift + s.resolver.transpose) ∧
    (t.detectors.get d).armed = false ∧ (t.detectors.get d).hits = (s.detectors.get d).hits ∧
    let moved := { s.fired d with resolver := { s.resolver with octaveShift := t.resolver.octaveShift, leadNote := t.resolver.leadNote } }
    (s.breath.articulation ≠ .sounding ∨ s.leadTag = none ∨ t.resolver.leadNote = s.resolver.leadNote → t = moved) ∧
    (∀ u v, s.breath.articulation = .sounding → s.leadTag = some u → s.voice u = some v →
      t.resolver.leadNote ≠ s.resolver.leadNote → ∃ s', moved.LegatoTo s' u v t.resolver.leadNote ∧ t = s'.planned) := by
  have hresolver : t.resolver = { s.resolver with
      octaveShift := f s.resolver.octaveShift
      leadNote := fold (s.resolver.taken + 12 * f s.resolver.octaveShift + s.resolver.transpose) } := by
    rw [ht, recomputeLead_resolver]
    rfl
  have hdetectors : t.detectors.get d = { s.detectors.get d with armed := false } := by
    rw [ht, (recomputeLead_leaves _).detectors, Four.get_set_same]
  rw [hresolver, hdetectors]
  refine ⟨rfl, rfl, rfl, rfl, fun h => ?_, fun u v ha hu hv hne => ?_⟩
  · rw [ht]
    exact recomputeLead_of_not_delivered h
  · obtain ⟨s', hlegato, hplanned⟩ := recomputeLead_legatoTo
      (s := { s.fired d with resolver := { s.resolver with octaveShift := f s.resolver.octaveShift } }) ha hu hv hne
    exact ⟨s', hlegato, ht.trans hplanned⟩

/-- Settles O16: the action of the lowest-numbered due detector. -/
theorem detectorFireTakesAction : Obligations.DetectorFireTakesAction := by
  refine ⟨fun s d a hr hd hlower => ⟨fun ha => ?_, fun ha => ?_⟩, fun s d a hr hd hlower ha => ?_⟩
  · subst ha
    exact ⟨_, exec_detectorFire hr hd hlower, rfl, fun e => gestureBit _ d e, rfl⟩
  · subst ha
    have hother : (s.fired d).bank (s.fired d).banks.selector.other = s.bank s.banks.selector.other := rfl
    refine ⟨_, exec_detectorFire hr hd hlower, ?_⟩
    simp only [act, swapPrograms, hother]
    cases s.bank s.banks.selector.other <;> exact ⟨rfl, rfl⟩
  · obtain rfl | rfl := ha
    · obtain ⟨hshift, hnote, harmed, hhits, hsame, hlegato⟩ := octave_spec (s := s) (d := d) (f := octaveUp) rfl
      exact ⟨_, exec_octave hr hd hlower fun _ => rfl, fun _ => hshift, nofun, hnote, harmed, hhits, hsame, hlegato⟩
    · obtain ⟨hshift, hnote, harmed, hhits, hsame, hlegato⟩ := octave_spec (s := s) (d := d) (f := octaveDown) rfl
      exact ⟨_, exec_octave hr hd hlower fun _ => rfl, nofun, fun _ => hshift, hnote, harmed, hhits, hsame, hlegato⟩

/-! ### Settings taken -/

/-- The state with the waiting transpose taken, the lead note as it stood (R11, R185). -/
abbrev State.withTranspose (s : State) (v : Int) : State := { s with
  panel := { s.panel with waitTranspose := none, transposeDue := false }
  resolver := { s.resolver with transpose := v } }

section
variable {s : State} {v : Int} (hr : s.Running) (hsettle : s.pitch.settleCount < 16) (hdue : s.panel.transposeDue = true)
  (hwait : s.panel.waitTranspose = some v)
include hr hsettle hdue hwait

theorem exec_transposeTaken : exec .transposeTaken s = .next (recomputeInstalled (s.withTranspose v)) := by
  have hsteady : exec .transposeTaken s = .next (takeTranspose s) := exec_steady rfl hr rfl hsettle
  rw [hsteady]
  simp only [takeTranspose, hdue, hwait, if_true]

theorem exec_transposeTaken_of_image (himage : s.image?.isSome = true) :
    exec .transposeTaken s = .next (recomputeLead (s.withTranspose v)) := by
  rw [exec_transposeTaken hr hsettle hdue hwait, recomputeInstalled]
  obtain ⟨img, himg⟩ := Option.isSome_iff_exists.1 himage
  rw [show (s.withTranspose v).image? = some img from himg]

theorem exec_transposeTaken_of_no_image (himage : s.image? = none) : exec .transposeTaken s = .next (s.withTranspose v) := by
  rw [exec_transposeTaken hr hsettle hdue hwait, recomputeInstalled]
  rw [show (s.withTranspose v).image? = none from himage]

theorem transposeTaken_spec : ∃ t, exec .transposeTaken s = .next t ∧ t.resolver.transpose = v ∧ t.panel.waitTranspose = none ∧
    (let sum : Int := s.resolver.taken + 12 * s.resolver.octaveShift + v
     s.image?.isSome = true →
     t.resolver.leadNote = fold sum ∧ t.resolver.leadNote ≤ 127 ∧ ((t.resolver.leadNote : Int) - sum) % 12 = 0 ∧
     (0 ≤ sum → sum ≤ 127 → (t.resolver.leadNote : Int) = sum) ∧ (127 < sum → 116 ≤ t.resolver.leadNote) ∧
     (sum < 0 → t.resolver.leadNote < 12)) ∧
    (s.image? = none → t.resolver.leadNote = s.resolver.leadNote) ∧
    t.resolver.taken = s.resolver.taken ∧ t.resolver.octaveShift = s.resolver.octaveShift ∧
    (s.breath.articulation ≠ .sounding ∨ s.image? = none →
      t = { s with resolver := { s.resolver with transpose := v, leadNote := t.resolver.leadNote }
                   panel := { s.panel with waitTranspose := none, transposeDue := false } }) := by
  cases himage : s.image? with
  | none =>
    refine ⟨_, exec_transposeTaken_of_no_image hr hsettle hdue hwait himage, rfl, rfl, nofun, fun _ => rfl, rfl, rfl, fun _ => rfl⟩
  | some img =>
    have hresolver := recomputeLead_resolver (s.withTranspose v)
    obtain ⟨hmod, hmid, hhigh, hlow⟩ := fold_spec (s.resolver.taken + 12 * s.resolver.octaveShift + v)
    refine ⟨_, exec_transposeTaken_of_image hr hsettle hdue hwait (by rw [himage]; rfl), ?_⟩
    rw [hresolver]
    refine ⟨rfl, congrArg Panel.waitTranspose (recomputeLead_leaves _).panel, fun _ => ⟨rfl, fold_le _, ?_, hmid, hhigh, hlow⟩, nofun,
      rfl, rfl, fun h => ?_⟩
    · show ((fold (s.resolver.taken + 12 * s.resolver.octaveShift + v) : Int) - _) % 12 = 0
      omega
    · exact recomputeLead_of_not_delivered (.inl (h.resolve_right nofun))

end

/-- Settles O24: a taken transpose is a recomputation; the other settings are set as they waited. -/
theorem settingsTakenAtBoundary : Obligations.SettingsTakenAtBoundary := by
  refine ⟨fun s v hr hsettle hdue hwait => transposeTaken_spec hr hsettle hdue hwait,
    fun s v u x hr hsettle himage hdue hwait ha hu hx hne => ?_, fun s v hr hsettle hdue hwait => ?_,
    fun s k scale hr hdue hwait => ?_, fun s hsettle => ?_⟩
  · obtain ⟨s', ⟨hslots, hranks, hstart, hline, hframe⟩, hplanned⟩ :=
      recomputeLead_legatoTo (s := s.withTranspose v) ha hu hx hne
    refine ⟨_, s', exec_transposeTaken_of_image hr hsettle hdue hwait himage, hplanned, hslots, hranks, hstart, fun y hy r => ?_,
      (congrArg State.map hframe).trans rfl, (congrArg State.pitch hframe).trans rfl, (congrArg State.breath hframe).trans rfl,
      fun hoff => ?_⟩
    · rw [hline] at hy
      have hno := (List.mem_filter.1 hy).2
      simp only [Bool.not_eq_true', List.any_eq_false] at hno
      exact Bool.eq_false_iff.2 (hno r (mem_allRanks r))
    · rw [hplanned]
      refine foldl_fixed _ _ _ fun r _ => if_neg ?_
      rw [(hranks r).1]
      exact Bool.eq_false_iff.1 (hoff r)
  · have hexec : exec .tuningTaken s = .next (takeTuning s) := exec_steady rfl hr rfl hsettle
    rw [hexec]
    simp only [takeTuning, hdue, hwait, if_true]
  · have hexec : exec .keyTaken s = .next (takeKey s) := exec_inside rfl hr rfl rfl
    rw [hexec]
    simp only [takeKey, hdue, hwait, if_true]
  · by_cases hr : s.Running
    · have htranspose : exec .transposeTaken s = .next (takeTranspose s) := exec_steady rfl hr rfl hsettle
      have htuning : exec .tuningTaken s = .next (takeTuning s) := exec_steady rfl hr rfl hsettle
      have hkey : exec .keyTaken s = .next (takeKey s) := exec_inside rfl hr rfl rfl
      have hranks : exec .ranksTaken s = .next (takeRanks s) := exec_steady rfl hr rfl hsettle
      refine ⟨fun h => ?_, fun h => ?_, fun h => ?_, fun h => ?_⟩
      · rw [htranspose, takeTranspose, if_neg (by simp [h])]
      · rw [htuning, takeTuning, if_neg (by simp [h])]
      · rw [hkey, takeKey, if_neg (by simp [h])]
      · rw [hranks, takeRanks, if_neg (by simp [h])]
    · have hheld : s.power.resetHeld = true := by simpa [State.Running] using hr
      exact ⟨fun _ => exec_held rfl hheld, fun _ => exec_held rfl hheld, fun _ => exec_held rfl hheld, fun _ => exec_held rfl hheld⟩

end Sys2Proof.Machine

/-!
The end of an onset and the loss of the sensor (R9, R20, R21, R32, R34, R52 to R55, R59, R63, R100). O18 and O19.
-/

namespace Sys2Proof.Machine

/-! ### Plans beside a sounding slot -/

/-- A plan of a rank without a slot touches no slot in use, keeps every queued record but its own CLAIM and a HELD, and outside ACTIVE
leaves the line (R99 to R103). -/
theorem plan_beside {s : State} {r : Fin 3} {u : Fin 8} {v : Voice} (hslot : (s.rank r).slot = none) (hv : s.voice u = some v)
    (hactive : v.active = true) (start : Nat) : (plan r start false s).slot u = s.slot u ∧
      (∀ y ∈ s.line.queue, y.record.isHeld = false → (∀ q : Fin 3, y.record.isClaim q = false) →
        y ∈ (plan r start false s).line.queue) ∧
      (s.line.state ≠ .active → (plan r start false s).line = s.line) := by
  unfold plan
  split
  · exact ⟨rfl, fun y hy _ _ => hy, fun _ => rfl⟩
  · next lead _ =>
    dsimp only
    split
    · have htag : s.rankTag r = none := by simp only [State.rankTag, hslot]
      rw [exhaust_eq, withdrawn_of_no_tag htag]
      exact ⟨rfl, fun y hy _ _ => hy, fun _ => rfl⟩
    · next pos note _ =>
      obtain ⟨hslots, -, -, hline⟩ := makeClaim_spec r pos note lead.bank false s
      refine ⟨?_, fun y hy hheld hclaim => ?_, fun hstate => by rw [hline, if_neg hstate]⟩
      · rw [slot_congr hslots u]
        show ((allocate (.harmony r) note lead.bank none (s.numbered r)).2).slot u = _
        unfold allocate
        cases htag : (s.numbered r).allocationTag with
        | none => rfl
        | some w =>
          have hne : u ≠ w := fun h => by
            subst h
            have hno := not_active_of_takes (takes_of_allocationTag htag) v hv
            rw [hactive] at hno
            cases hno
          show (loadPending _).slot u = _
          rw [slot_congr (loadPending_slots _) u, slot_setSlot, if_neg hne]
          rfl
      · rw [hline]
        split
        · next hstate =>
          rw [Line.enqueue, if_pos hstate]
          exact Line.mem_replaceOrJoin_of_not hy (hclaim r) hheld
        · exact hy

theorem rank_slot_planned {s : State} {q r : Fin 3} {start : Nat} (hqr : q ≠ r) (h : (s.rank q).slot = none) :
    ((plan r start false s).rank q).slot = none := by rw [plan_rank_other hqr, h]

/-- Plans of the ranks of a list, each without a slot, beside a sounding slot. -/
theorem planList_beside {u : Fin 8} {v : Voice} (hactive : v.active = true) {l : List (Fin 3)} (hnodup : l.Nodup) {s : State}
    (hslot : ∀ r ∈ l, (s.rank r).slot = none) (hv : s.voice u = some v) :
    let t := l.foldl (fun x r => if x.enabled r then plan r 0 false x else x) s
    t.slot u = s.slot u ∧
      (∀ y ∈ s.line.queue, y.record.isHeld = false → (∀ q : Fin 3, y.record.isClaim q = false) → y ∈ t.line.queue) ∧
      (s.line.state ≠ .active → t.line = s.line) := by
  induction l generalizing s with
  | nil => exact ⟨rfl, fun y hy _ _ => hy, fun _ => rfl⟩
  | cons r l ih =>
    obtain ⟨hr, hnodup⟩ := List.nodup_cons.1 hnodup
    intro t
    have hrest : ∀ q ∈ l, (s.rank q).slot = none := fun q hq => hslot q (List.mem_cons_of_mem r hq)
    by_cases hon : s.enabled r = true
    · obtain ⟨hsame, hkept, hline⟩ := plan_beside (hslot r List.mem_cons_self) hv hactive 0
      have hv' : (plan r 0 false s).voice u = some v := (congrArg Slot.voice hsame).trans hv
      obtain ⟨hsame', hkept', hline'⟩ := ih hnodup (s := plan r 0 false s)
        (fun q hq => rank_slot_planned (fun h => hr (h ▸ hq)) (hrest q hq)) hv'
      have ht : t = l.foldl (fun x r => if x.enabled r then plan r 0 false x else x) (plan r 0 false s) := by
        show l.foldl _ (if s.enabled r then plan r 0 false s else s) = _
        rw [if_pos hon]
      rw [ht]
      refine ⟨hsame'.trans hsame, fun y hy hheld hclaim => hkept' y (hkept y hy hheld hclaim) hheld hclaim, fun hstate => ?_⟩
      have hstate' : (plan r 0 false s).line.state ≠ .active := by rwa [(voiceWork_plan r 0 false s).lineState]
      exact (hline' hstate').trans (hline hstate)
    · have ht : t = l.foldl (fun x r => if x.enabled r then plan r 0 false x else x) s := by
        show l.foldl _ (if s.enabled r then plan r 0 false s else s) = _
        rw [if_neg hon]
      rw [ht]
      exact ih hnodup hrest hv

/-! ### The end of an onset -/

theorem fireAll_of_none {s : State} (h : ∀ d : Fin 4, s.firing d = none) : fireAll s = s :=
  foldl_fixed _ s _ fun d _ => by simp only [fireDetector, h d]

/-- The fingering a take leaves (R8, R9). -/
def Candidate.taken (c : Candidate) (old : Int) : Int :=
  match c with
  | .note n => n
  | .unresolved => old

/-- A take while nothing sounds moves the resolver's fingering and lead note alone (R9, R12, R13). -/
theorem takeCandidate_of_not_sounding {s : State} (c : Candidate) (ha : s.breath.articulation ≠ .sounding) :
    ∃ n, takeCandidate c s = { s with resolver := { s.resolver with taken := c.taken s.resolver.taken, leadNote := n } } ∧
      (s.resolver.leadNote = s.resolver.computeLead →
        n = fold (c.taken s.resolver.taken + 12 * s.resolver.octaveShift + s.resolver.transpose)) := by
  cases c with
  | unresolved => exact ⟨s.resolver.leadNote, rfl, id⟩
  | note m =>
    unfold takeCandidate
    dsimp only
    split
    · next h =>
      subst h
      exact ⟨s.resolver.leadNote, rfl, id⟩
    · exact ⟨_, recomputeLead_of_not_delivered (.inl ha), fun _ => rfl⟩

/-- The state whose lead starts at the end of an onset: the onset take made, the articulation SOUNDING (R9, R32). -/
abbrev State.onsetTaken (s : State) (m : Int) (n : Nat) : State := { s with
  resolver := { s.resolver with taken := m, leadNote := n }
  breath := { s.breath with articulation := .sounding, onsetEnding := false } }

theorem exec_onsetEnd {s : State} {c : Candidate} (hr : s.Running) (hfire : ∀ d : Fin 4, s.firing d = none)
    (ha : s.breath.articulation = .onset) (hend : s.breath.onsetEnding = true) (hprev : s.resolver.previous = some c)
    (hlead : s.resolver.leadNote = s.resolver.computeLead) : exec .onsetEnd s = .next (leadStart (s.onsetTaken
      (c.taken s.resolver.taken) (fold (c.taken s.resolver.taken + 12 * s.resolver.octaveShift + s.resolver.transpose)))) := by
  have hexec : exec .onsetEnd s = .next (onsetEnd s) := exec_inside rfl hr rfl rfl
  obtain ⟨n, htake, hn⟩ := takeCandidate_of_not_sounding (s := s) c (by rw [ha]; nofun)
  rw [hexec, onsetEnd, if_pos ⟨ha, hend⟩, fireAll_of_none hfire]
  simp only [hprev]
  rw [htake, hn hlead]

/-- A lead start with a READY current bank (R32, R52 to R55, R63, R100). -/
theorem leadStart_of_ready {s : State} {h : Held} {u : Fin 8} (hbank : s.bank s.banks.selector = .ready h) (hu : s.Takes u) :
    leadStart s = planAll false (queueNoteStart u (loadPending (setSlot u ((s.slot u).start
      (s.newVoice .lead s.resolver.leadNote s.banks.selector (some s.breath.onsetPeak))) s))) := by
  have hprogram : s.currentProgram = some h.params := by simp only [State.currentProgram, hbank]
  simp only [leadStart, hprogram, allocate, allocationTag_eq_some_iff.2 hu]

theorem leadStart_of_no_program {s : State} (h : s.currentProgram = none) : leadStart s = s := by
  simp only [leadStart, h]

/-- The NOTE_START of a slot just allocated (R54). -/
theorem queueNoteStart_started {s : State} {u : Fin 8} (x : Slot) {v : Voice} (hx : x.voice = some v) :
    queueNoteStart u (loadPending (setSlot u x s)) =
      enqueue (.noteStart u v.note v.role.onLine s.breath.levelClass) (loadPending (setSlot u x s)) := by
  have hvoice : (loadPending (setSlot u x s)).voice u = some v := by
    rw [voice_congr (loadPending_slots _) u, voice_setSlot, if_pos rfl, hx]
  simp only [queueNoteStart, hvoice, (voiceWork_loadPending (setSlot u x s)).breath]
  rfl

/-- The lead started by an onset's end and the plans after it. -/
theorem leadStart_spec {s : State} {h : Held} {u : Fin 8} (hbank : s.bank s.banks.selector = .ready h) (hu : s.Takes u)
    (hslot : ∀ r : Fin 3, (s.rank r).slot = none) : ∃ s' v, leadStart s = planAll false s' ∧
      s'.slots = s.slots.set u { s.slot u with gainCurrent := 0, gainTarget := 0, phase := 0, voice := some v } ∧
      s'.harmony = s.harmony ∧ s'.map = s.map ∧ (s.line.state ≠ .active → s'.line = s.line) ∧
      (leadStart s).slot u = s'.slot u ∧ v = s.newVoice .lead s.resolver.leadNote s.banks.selector (some s.breath.onsetPeak) ∧
      (s.line.state = .active →
        ∃ y ∈ (leadStart s).line.queue, y.record = .noteStart u s.resolver.leadNote .lead s.breath.levelClass) ∧
      (s.line.state ≠ .active → (leadStart s).line = s.line) := by
  have hstart := leadStart_of_ready hbank hu
  rw [queueNoteStart_started _ rfl] at hstart
  generalize hv : s.newVoice .lead s.resolver.leadNote s.banks.selector (some s.breath.onsetPeak) = v at hstart
  have hsounds : v.active = true := by rw [← hv]; rfl
  have hrecord : Record.noteStart u v.note v.role.onLine s.breath.levelClass =
      .noteStart u s.resolver.leadNote .lead s.breath.levelClass := by rw [← hv]; rfl
  rw [hrecord] at hstart
  generalize hs' : enqueue (.noteStart u s.resolver.leadNote .lead s.breath.levelClass)
    (loadPending (setSlot u ((s.slot u).start v) s)) = s' at hstart
  have hwork : VoiceWork s s' := by
    rw [← hs']
    exact ((voiceWork_setSlot _ _ _).trans (voiceWork_loadPending _)).trans (voiceWork_admit _ _)
  have hslots : s'.slots = s.slots.set u ((s.slot u).start v) := by
    rw [← hs', admit_slots, loadPending_slots]
    rfl
  have hharmony : s'.harmony = s.harmony := by
    rw [← hs', admit_harmony, loadPending_harmony]
    rfl
  have hline : s'.line = s.line.enqueue (.noteStart u s.resolver.leadNote .lead s.breath.levelClass) := by
    rw [← hs', admit_line, loadPending_line]
    rfl
  have hvoice : s'.voice u = some v := by
    rw [voice_congr (t := s') (s := setSlot u ((s.slot u).start v) s) hslots u, voice_setSlot, if_pos rfl]
    rfl
  obtain ⟨hsame, hkept, hstays⟩ := planList_beside hsounds (l := allRanks) (by decide)
    (fun r _ => by rw [rank_congr hharmony r]; exact hslot r) hvoice
  rw [show allRanks.foldl _ s' = leadStart s from hstart.symm] at hsame hkept hstays
  refine ⟨s', v, hstart, hslots, hharmony, hwork.map, fun ha => by rw [hline, admit_of_not_active ha], hsame, rfl, fun ha => ?_, fun ha => ?_⟩
  · refine ⟨Queued.fresh (.noteStart u s.resolver.leadNote .lead s.breath.levelClass), hkept _ ?_ rfl fun _ => rfl, rfl⟩
    rw [hline]
    exact Line.fresh_mem_admit ha rfl rfl
  · rw [hstays (by rw [hwork.lineState]; exact ha), hline, admit_of_not_active ha]

/-- Without a READY current bank the onset's end is the take alone (R32). -/
theorem exec_onsetEnd_of_no_program {s : State} (hr : s.Running) (hfire : ∀ d : Fin 4, s.firing d = none)
    (ha : s.breath.articulation = .onset) (hend : s.breath.onsetEnding = true) (hprogram : s.currentProgram = none) :
    ∃ m n, exec .onsetEnd s = .next (s.onsetTaken m n) := by
  have hexec : exec .onsetEnd s = .next (onsetEnd s) := exec_inside rfl hr rfl rfl
  have hstart : ∀ m n, leadStart (s.onsetTaken m n) = s.onsetTaken m n := fun m n => leadStart_of_no_program hprogram
  rw [hexec, onsetEnd, if_pos ⟨ha, hend⟩, fireAll_of_none hfire]
  cases hprev : s.resolver.previous with
  | none => exact ⟨s.resolver.taken, s.resolver.leadNote, congrArg Host.Outcome.next (by simp only [hprev]; exact hstart _ _)⟩
  | some c =>
    obtain ⟨n, htake, -⟩ := takeCandidate_of_not_sounding (s := s) c (by rw [ha]; nofun)
    refine ⟨c.taken s.resolver.taken, n, congrArg Host.Outcome.next ?_⟩
    simp only [hprev]
    rw [htake]
    exact hstart _ _

/-- Settles O18: with no gesture to fire the onset's end is the take and the lead start. -/
theorem onsetEndStartsLead : Obligations.OnsetEndStartsLead := by
  refine ⟨fun s c h u hr hfire ha hend hprev hlead hbank hu hslot => ?_, fun s hr hfire ha hend hprogram => ?_⟩
  · obtain ⟨s', v, hplan, hslots, hharmony, hmap, hline, hsame, hv, hstart, hstays⟩ := leadStart_spec (s := s.onsetTaken
      (c.taken s.resolver.taken) (fold (c.taken s.resolver.taken + 12 * s.resolver.octaveShift + s.resolver.transpose))) hbank hu hslot
    have hwork := voiceWork_leadStart (s.onsetTaken
      (c.taken s.resolver.taken) (fold (c.taken s.resolver.taken + 12 * s.resolver.octaveShift + s.resolver.transpose)))
    refine ⟨_, s', v, exec_onsetEnd hr hfire ha hend hprev hlead, hwork.breath, ?_, ?_, hplan, hslots, hharmony, hmap, hline, hsame, ?_⟩
    · rw [hwork.resolver]
      cases c <;> rfl
    · rw [hwork.resolver]
    · rw [hwork.resolver]
      subst hv
      exact ⟨rfl, rfl, rfl, rfl, rfl, rfl, rfl, rfl, hstart, hstays⟩
  · obtain ⟨m, n, hexec⟩ := exec_onsetEnd_of_no_program hr hfire ha hend hprogram
    exact ⟨_, hexec, rfl, rfl, rfl, rfl, rfl⟩

/-! ### The loss of the sensor -/

/-- The breath at a declared loss (R21). -/
def Breath.lost (b : Breath) (img : Image) : Breath :=
  match b.baseline with
  | some _ => { b with net := 0, level := img.curve.getD 0 0, levelClass := levelClassOf (img.curve.getD 0 0) }
  | none => b

/-- The receiver's part of a loss (R20). -/
abbrev State.senseLost (s : State) : State := raise .sensorLost { s with sensor := { s.sensor with receiver := .lost } }

theorem exec_sensorLost {s : State} (hr : s.Running) (hrec : s.sensor.receiver = .receiving) (htimer : s.sensor.missingTimer = 8) :
    exec .sensorLost s = .next (match s.image? with
      | some img => loseBreath img s.senseLost
      | none => s.senseLost) := by
  have hexec : exec .sensorLost s = .next (sensorLost s) := exec_inside rfl hr rfl rfl
  have hlimit : Config.lossBlocks ≤ s.sensor.missingTimer := by rw [htimer]; exact Nat.le_refl 8
  rw [hexec, sensorLost, if_pos ⟨hrec, hlimit⟩]
  rfl

/-- The state at a loss with its breath, before a sounding note is released (R20, R21, R34). -/
def State.lossSilent (s : State) (img : Image) : State :=
  { s.senseLost with breath := { s.breath.lost img with articulation := .silent } }

theorem loseBreath_of_sounding {img : Image} {s : State} (h : s.breath.articulation = .sounding) :
    loseBreath img s.senseLost = releaseAll (s.lossSilent img) := by
  obtain ⟨_, _, _, _, _, ⟨baseline, _, _, _, _, _, _, _, articulation, _, _, _, _⟩, _, _, _, _, _, _, _, _, _⟩ := s
  obtain rfl : articulation = .sounding := h
  cases baseline <;> rfl

theorem loseBreath_of_not_sounding {img : Image} {s : State} (h : s.breath.articulation ≠ .sounding) : ∃ e,
    loseBreath img s.senseLost = { s.senseLost with breath := { s.breath.lost img with articulation := .silent, onsetEnding := e } } := by
  obtain ⟨_, _, _, _, _, ⟨baseline, _, _, _, _, _, _, _, articulation, _, _, _, ending⟩, _, _, _, _, _, _, _, _, _⟩ := s
  cases articulation with
  | sounding => exact absurd rfl h
  | onset => exact ⟨false, by cases baseline <;> rfl⟩
  | silent => exact ⟨ending, by cases baseline <;> rfl⟩

/-- The breath after a loss, field by field (R21, R34). -/
theorem lost_spec (b : Breath) (img : Image) : (b.lost img).baseline = b.baseline ∧
    (b.baseline ≠ none → (b.lost img).net = 0 ∧ (b.lost img).level = img.curve.getD 0 0 ∧
      (b.lost img).levelClass = levelClassOf (img.curve.getD 0 0)) ∧
    (b.baseline = none → (b.lost img).net = b.net ∧ (b.lost img).level = b.level) ∧
    (b.lost img).bend = b.bend ∧ (b.lost img).previousNet = b.previousNet := by
  obtain ⟨baseline, _, _, _, _, _, _, _, _, _, _, _, _⟩ := b
  cases baseline with
  | none => exact ⟨rfl, fun h => absurd rfl h, fun _ => ⟨rfl, rfl⟩, rfl, rfl⟩
  | some z => exact ⟨rfl, fun _ => ⟨rfl, rfl, rfl⟩, nofun, rfl, rfl⟩

/-- A release leaves no voice that is not RELEASING (R59). -/
theorem releasing_of_releasedTo {s t : State} (h : s.ReleasedTo t) {u : Fin 8} {v : Voice} (hv : t.voice u = some v) :
    v.releasing = true := by
  obtain ⟨-, hfree, hfading, hactive⟩ := h.1 u
  cases hold : s.voice u with
  | none =>
    rw [hfree hold] at hv
    cases hv
  | some w =>
    cases hrel : w.releasing with
    | true =>
      rw [hfading w hold hrel] at hv
      obtain rfl := Option.some.inj hv
      exact hrel
    | false =>
      rw [(hactive w hold hrel).1] at hv
      obtain rfl := Option.some.inj hv
      rfl

/-- Settles O19: a loss is the receiver's part, the breath's, and the release of a sounding note. -/
theorem sensorLossEndsNote : Obligations.SensorLossEndsNote := by
  intro s hr hrec htimer
  have hexec := exec_sensorLost hr hrec htimer
  cases himage : s.image? with
  | none =>
    rw [himage] at hexec
    refine ⟨_, hexec, rfl, rfl, attn_of_unmarked (e := .sensorLost) rfl, fun img himg => ?_, fun _ => rfl⟩
    simp only [State.image?, himg] at himage
    cases himage
  | some img =>
    rw [himage] at hexec
    obtain ⟨hbase, hcaptured, hfresh, hbend, hprevious⟩ := lost_spec s.breath img
    have hsame : ∀ x, s.loader.image = .loaded x → x = img := fun x hx => by
      simp only [State.image?, hx] at himage
      exact Option.some.inj himage
    by_cases ha : s.breath.articulation = .sounding
    · obtain ⟨hreleased, hframe⟩ := releaseAll_releasedTo (s.lossSilent img)
      have hwork := voiceWork_releaseAll (s.lossSilent img)
      refine ⟨releaseAll (s.lossSilent img), hexec.trans (congrArg _ (loseBreath_of_sounding ha)), ?_⟩
      rw [hwork.breath, hwork.panel, hwork.sensor]
      refine ⟨rfl, rfl, attn_of_unmarked (e := .sensorLost) ?_, fun x hx => ?_, nofun⟩
      · rw [hwork.panel]
        rfl
      · obtain rfl := hsame x hx
        refine ⟨rfl, hbase, hcaptured, hfresh, hbend, hprevious, hwork.resolver, hwork.detectors, hwork.map,
          fun _ => ⟨fun u v => releasing_of_releasedTo hreleased, fun r => ?_, hreleased⟩, fun h => absurd ha h, hframe⟩
        obtain ⟨hstage, hclaim, -, -, hrefused⟩ := hreleased.2.1 r
        exact ⟨hstage, hclaim, hrefused⟩
    · obtain ⟨e, hlose⟩ := loseBreath_of_not_sounding (img := img) (s := s) ha
      refine ⟨_, hexec.trans (congrArg _ hlose), rfl, rfl, attn_of_unmarked (e := .sensorLost) rfl, fun x hx => ?_, nofun⟩
      obtain rfl := hsame x hx
      exact ⟨rfl, hbase, hcaptured, hfresh, hbend, hprevious, rfl, rfl, rfl, fun h => absurd h ha, fun _ => ⟨rfl, rfl, rfl⟩, rfl⟩

end Sys2Proof.Machine

/-!
Transfers and the messages of the panel (R62, R181 to R186). O44, O45, O47 and O50.
-/

namespace Sys2Proof.Machine

/-! ### The transfer -/

theorem statusByte_spec {free : Nat} (h : free ≤ 8) (more : Bool) :
    (statusByte free more).toNat % 16 = free ∧ (statusByte free more).getLsbD 7 = more := by
  cases more <;> interval_cases free <;> decide

theorem readMessage_eq_idle_iff (m : Octets) : readMessage m = .idle ↔ m.b0 = 0 := by
  constructor
  · intro h
    unfold readMessage at h
    split at h
    · next h0 => exact BitVec.eq_of_toNat_eq h0
    all_goals cases h
  · intro h
    simp [readMessage, h]

/-- What a transfer offers the in FIFO (R182, R183). -/
theorem offerMessage_eq (m : Octets) (s : State) : offerMessage m s =
    if m.b0 = 0 then s
    else if s.panel.inFifo.length < 8 then { s with panel := { s.panel with inFifo := s.panel.inFifo ++ [m] } }
    else raise .panelOverrun s := by
  rw [offerMessage]
  exact if_congr (readMessage_eq_idle_iff m) rfl rfl

theorem bytes_b1 (r : PanelRecord) (free : Nat) (more : Bool) : (r.bytes free more).b1 = statusByte free more := by cases r <;> rfl

/-- The record a transfer moves out (R182). -/
theorem outgoing_spec (s : State) :
    s.outgoing.b1.toNat % 16 = 8 - s.panel.inFifo.length ∧
    s.outgoing.b1.getLsbD 7 = decide (2 ≤ s.panel.outFifo.length) ∧
    (s.panel.outFifo = [] → s.outgoing = { b0 := 0, b1 := s.outgoing.b1, b2 := 0, b3 := 0, b4 := 0, b5 := 0, b6 := 0, b7 := 0 }) ∧
    (∀ r rest, s.panel.outFifo = r :: rest →
      s.outgoing = r.bytes (8 - s.panel.inFifo.length) (decide (2 ≤ s.panel.outFifo.length))) := by
  have hfree : 8 - s.panel.inFifo.length ≤ 8 := Nat.sub_le _ _
  cases hout : s.panel.outFifo with
  | nil =>
    have hidle : s.outgoing = idleRecord (8 - s.panel.inFifo.length) := by simp only [State.outgoing, hout]; rfl
    obtain ⟨hfree, hmore⟩ := statusByte_spec hfree false
    rw [hidle]
    exact ⟨hfree, hmore, fun _ => rfl, nofun⟩
  | cons r rest =>
    have hmany : (!rest.isEmpty) = decide (2 ≤ (r :: rest).length) := by cases rest <;> simp
    have hrecord : s.outgoing = r.bytes (8 - s.panel.inFifo.length) (decide (2 ≤ (r :: rest).length)) := by
      rw [← hmany]
      simp only [State.outgoing, hout]
      rfl
    obtain ⟨hfree, hmore⟩ := statusByte_spec hfree (decide (2 ≤ (r :: rest).length))
    rw [hrecord, bytes_b1]
    refine ⟨hfree, hmore, nofun, fun r' rest' h => ?_⟩
    obtain ⟨rfl, -⟩ := List.cons.inj h
    rfl

/-- Settles O44: the record out by `outgoing`, the message in by `offerMessage`. -/
theorem panelTransferMovesBothWays : Obligations.PanelTransferMovesBothWays := by
  refine ⟨fun s m hr hq _ => ?_, fun s => ?_⟩
  · have hexec : exec (.panelTransfer m) s = .next (transfer m s) := exec_quiet rfl hr hq
    obtain ⟨hfree, hmore, hidle, hrecord⟩ := outgoing_spec s
    rw [hexec, transfer, offerMessage_eq]
    by_cases hb : m.b0 = 0
    · rw [if_pos hb]
      exact ⟨_, s.outgoing, rfl, rfl, rfl, hfree, hmore, hidle, hrecord, fun _ => ⟨rfl, rfl⟩, fun h => absurd hb h,
        fun h => absurd hb h, rfl⟩
    · rw [if_neg hb]
      by_cases hroom : s.panel.inFifo.length < 8
      · rw [if_pos hroom]
        exact ⟨_, s.outgoing, rfl, rfl, rfl, hfree, hmore, hidle, hrecord, fun h => absurd h hb, fun _ _ => ⟨rfl, rfl⟩,
          fun _ h => absurd hroom (by omega), rfl⟩
      · rw [if_neg hroom]
        exact ⟨_, s.outgoing, rfl, rfl, rfl, hfree, hmore, hidle, hrecord, fun h => absurd h hb, fun _ h => absurd h hroom,
          fun _ _ => ⟨rfl, rfl⟩, rfl⟩
  · have hexec : exec .panelTransferAborted s = unlessHeld s id := rfl
    rw [hexec, unlessHeld]
    split <;> rfl

/-! ### Messages at the head -/

/-- The state with the message at the head taken from the in FIFO (R183). -/
abbrev State.headTaken (s : State) (rest : List Octets) : State := { s with panel := { s.panel with inFifo := rest } }

/-- A message that its command names takes effect (R183). -/
theorem exec_message {s : State} {c : Instr} {f : Message → Option (State → State)} {g : State → State} {m : Octets}
    {rest : List Octets} {x : Message} (hexec : exec c s = unlessHeld s (processHead f)) (hr : s.Running)
    (hhead : s.panel.inFifo = m :: rest) (hread : readMessage m = x) (hroom : x.room + s.panel.outFifo.length ≤ 8) (hf : f x = some g) :
    exec c s = .next (g (s.headTaken rest)) := by
  subst hread
  rw [hexec, unlessHeld_of_running hr, processHead_of_room hhead hroom hf, dropHead_of_cons hhead]

/-- A message that needs more places than the out FIFO has waits (R183). -/
theorem exec_message_waits {s : State} {c : Instr} {f : Message → Option (State → State)} (hexec : exec c s = unlessHeld s (processHead f))
    (hr : s.Running) (hf : ∀ x : Message, x.room + s.panel.outFifo.length ≤ 8 → f x = none) : exec c s = .next s := by
  rw [hexec, unlessHeld_of_running hr, processHead_of_not fun x hx => hf x (room_of_headMessage hx)]

theorem clampInt_eq (low high x : Int) : clampInt low high x = max low (min high x) := rfl

section
variable {m : Octets}

theorem readMessage_program (h : m.b0 = 1) : readMessage m = .program m.b1.toNat := by simp [readMessage, h]
theorem readMessage_transpose (h : m.b0 = 2) : readMessage m = .transpose m.b1.toInt := by simp [readMessage, h, signed8]
theorem readMessage_tuning (h : m.b0 = 3) : readMessage m = .tuning (m.b1 ++ m.b2 : BitVec 16).toInt := by
  simp [readMessage, h, signed16]
theorem readMessage_key (h : m.b0 = 4) : readMessage m = .key m.b1.toNat (scaleSet m.b2 m.b3) := by simp [readMessage, h]
theorem readMessage_ranks (h : m.b0 = 5) : readMessage m = .ranks (m.b1.extractLsb' 0 3) := by simp [readMessage, h]
theorem readMessage_allOff (h : m.b0 = 6) : readMessage m = .allOff := by simp [readMessage, h]
theorem readMessage_status (h : m.b0 = 7) : readMessage m = .status := by simp [readMessage, h]
theorem readMessage_section (h : m.b0 = 8) : readMessage m = .sectionReport := by simp [readMessage, h]
theorem readMessage_reload (h : m.b0 = 10) : readMessage m = .reload := by simp [readMessage, h]

theorem readMessage_unknown (h : 10 < m.b0.toNat) : readMessage m = .unknown m.b0 := by
  unfold readMessage
  split
  case h_12 => rfl
  all_goals omega

end

/-- The scale set of a KEY: its low byte and the four low bits of its high byte (R185). -/
theorem scaleSet_getLsbD (hi lo : Byte) : (∀ i < 8, (scaleSet hi lo).getLsbD i = lo.getLsbD i) ∧
    (∀ i < 4, (scaleSet hi lo).getLsbD (8 + i) = hi.getLsbD i) := by
  refine ⟨fun i hi => ?_, fun i hi => ?_⟩
  · rw [scaleSet, BitVec.getLsbD_append, if_pos hi]
  · rw [scaleSet, BitVec.getLsbD_append, if_neg (by omega), BitVec.getLsbD_extractLsb']
    simp [hi]

/-- Settles O45: one equation for the effect of each message, and the wait for room. -/
theorem settingsWaitOrAreRefused : Obligations.SettingsWaitOrAreRefused := by
  intro s m rest hr hhead
  refine ⟨fun hb hroom => ?_, fun hb hroom => ?_, fun hb hroom => ?_, fun hb hroom => ?_, fun hb hroom => ?_, fun hfull => ⟨?_, ?_, ?_⟩,
    fun hfull => ?_⟩
  · exact exec_message (f := onTranspose) rfl hr hhead (readMessage_transpose hb) (by simpa [Message.room] using hroom) rfl
  · exact exec_message (f := onTuning) rfl hr hhead (readMessage_tuning hb) (by simpa [Message.room] using hroom) rfl
  · have hexec : exec .key s = .next (fixKey m.b1.toNat (scaleSet m.b2 m.b3) (s.headTaken rest)) :=
      exec_message (f := onKey) rfl hr hhead (readMessage_key hb) (by simp only [Message.room]; omega) rfl
    obtain ⟨hlow, hhigh⟩ := scaleSet_getLsbD m.b2 m.b3
    refine ⟨hlow, hhigh, fun hscale => ?_, fun hscale => ?_⟩
    · rw [hexec, fixKey, if_neg hscale]
    · rw [hexec, fixKey, if_pos hscale]
      rfl
  · refine ⟨m.b1.extractLsb' 0 3, fun i hi => ?_,
      exec_message (f := onRanks) rfl hr hhead (readMessage_ranks hb) (by simpa [Message.room] using hroom) rfl⟩
    rw [BitVec.getLsbD_extractLsb']
    simp [hi]
  · exact exec_message (f := onBad) rfl hr hhead (readMessage_unknown hb) (by simp only [Message.room]; omega) rfl
  · exact exec_message_waits (f := onProgram) rfl hr fun x hx => by
      cases x with
      | program n => simp only [Message.room] at hx; omega
      | _ => rfl
  · exact exec_message_waits (f := onKey) rfl hr fun x hx => by
      cases x with
      | key k scale => simp only [Message.room] at hx; omega
      | _ => rfl
  · exact exec_message_waits (f := onBad) rfl hr fun x hx => by
      cases x with
      | unknown kind => simp only [Message.room] at hx; omega
      | _ => rfl
  · exact exec_message_waits (f := onStatus) rfl hr fun x hx => by
      cases x with
      | status => simp only [Message.room] at hx; omega
      | _ => rfl

/-- Settles O47: ALL_OFF is the release of every voice with every rank. -/
theorem allOffReleasesVoices : Obligations.AllOffReleasesVoices := by
  intro s m rest hr hhead hb hroom
  have hexec : exec .allOff s = .next (releaseAll (s.headTaken rest)) :=
    exec_message (f := onAllOff) rfl hr hhead (readMessage_allOff hb) (by simpa [Message.room] using hroom) rfl
  obtain ⟨⟨hslots, hranks, hclaims, hqueue, hharmony, hline⟩, hframe⟩ := releaseAll_releasedTo (s.headTaken rest)
  exact ⟨_, hexec, hslots, hranks, hclaims, hqueue, hharmony, hline, hframe⟩

/-- Settles O50: every block by its reset values. -/
theorem reloadRestartsBlocks : Obligations.ReloadRestartsBlocks := by
  intro s m rest hr hhead hb hroom
  have hexec : exec .reload s = .next (reloadPart (s.headTaken rest)) :=
    exec_message (f := onReload) rfl hr hhead (readMessage_reload hb) (by simpa [Message.room] using hroom) rfl
  have hslot : ∀ u : Fin 8, (reloadPart (s.headTaken rest)).slot u = Slot.reset := fun u => by fin_cases u <;> rfl
  have hrank : ∀ r : Fin 3, (reloadPart (s.headTaken rest)).rank r = Rank.reset := fun r => by fin_cases r <;> rfl
  refine ⟨_, hexec, rfl, rfl, rfl, rfl, ⟨rfl, rfl, rfl, rfl, rfl, rfl, rfl⟩,
    ⟨rfl, rfl, rfl, rfl, rfl, rfl, rfl, rfl, rfl, rfl, rfl, rfl⟩, fun d => by fin_cases d <;> rfl, fun u => ?_, rfl, rfl, fun r => ?_,
    ⟨rfl, rfl, rfl, rfl, rfl⟩, rfl, rfl, rfl, rfl, rfl, rfl, rfl⟩
  · rw [State.voice, hslot]
    exact ⟨rfl, rfl, rfl, rfl⟩
  · rw [hrank]
    exact ⟨rfl, rfl, rfl, rfl, rfl⟩

end Sys2Proof.Machine

/-!
PROGRAM and the reports of the panel (R69, R70, R184, R187, R188). O46 and O48.
-/

namespace Sys2Proof.Machine

/-! ### PROGRAM -/

theorem isReady_iff {x : BankState} {n : Nat} : x.isReady n = true ↔ ∃ h, x = .ready h ∧ h.number = n := by
  cases x <;> simp [BankState.isReady]

theorem keeps?_iff {x : BankState} {n : Nat} {h : Held} : x.keeps? n = some h ↔ (∃ k, x = .pending k (some h)) ∧ h.number = n := by
  cases x with
  | pending k held =>
    cases held with
    | none => simp [BankState.keeps?]
    | some g =>
      simp only [BankState.keeps?, Option.ite_none_right_eq_some, Option.some.injEq, BankState.pending.injEq]
      constructor
      · rintro ⟨hn, rfl⟩
        exact ⟨⟨k, rfl, rfl⟩, hn⟩
      · rintro ⟨⟨-, -, rfl⟩, hn⟩
        exact ⟨hn, rfl⟩
  | _ => simp [BankState.keeps?]

theorem setBank_frame (b : BankId) (x : BankState) (s : State) : setBank b x s = { s with banks := (setBank b x s).banks } := by
  cases b <;> rfl

theorem abandonRead_spec (s : State) : abandonRead s = { s with loader := (abandonRead s).loader } ∧
    (abandonRead s).loader.image = s.loader.image ∧
    ∀ b j, s.loader.reading = some (.programRead b j) → (abandonRead s).loader.reading = none := by
  unfold abandonRead
  split
  · exact ⟨rfl, rfl, fun _ _ _ => rfl⟩
  · next h => exact ⟨rfl, rfl, fun b j hb => absurd hb (h b j)⟩

/-- The cancellation of the other bank's request (R70). -/
theorem cancelBank_spec (b : BankId) (s : State) :
    cancelBank b s = { s with banks := (cancelBank b s).banks, loader := (cancelBank b s).loader } ∧
    (cancelBank b s).loader.image = s.loader.image ∧ (cancelBank b s).banks.selector = s.banks.selector ∧
    (cancelBank b s).bank b = (match s.bank b with
      | .pending _ (some h) => .ready h
      | .ready h => .ready h
      | _ => .empty) ∧
    (∀ c, c ≠ b → (cancelBank b s).bank c = s.bank c) ∧
    (∀ k c j, s.bank b = .loading k → s.loader.reading = some (.programRead c j) → (cancelBank b s).loader.reading = none) ∧
    ((∀ k, s.bank b ≠ .loading k) → (cancelBank b s).loader = s.loader) := by
  unfold cancelBank
  cases h : s.bank b with
  | empty => exact ⟨rfl, rfl, rfl, h, fun _ _ => rfl, nofun, fun _ => rfl⟩
  | ready held => exact ⟨rfl, rfl, rfl, h, fun _ _ => rfl, nofun, fun _ => rfl⟩
  | pending k held =>
    cases held with
    | none =>
      refine ⟨?_, setBank_loader s b _ ▸ rfl, setBank_selector s b _, ?_, fun c hc => bank_setBank_ne hc _ s, nofun,
        fun _ => setBank_loader s b _⟩
      · rw [setBank_loader]
        exact setBank_frame b _ s
      · rw [bank_setBank, if_pos rfl]
    | some held =>
      refine ⟨?_, setBank_loader s b _ ▸ rfl, setBank_selector s b _, ?_, fun c hc => bank_setBank_ne hc _ s, nofun,
        fun _ => setBank_loader s b _⟩
      · rw [setBank_loader]
        exact setBank_frame b _ s
      · rw [bank_setBank, if_pos rfl]
  | loading k =>
    obtain ⟨hframe, himage, hreading⟩ := abandonRead_spec (setBank b .empty s)
    have hbanks : (abandonRead (setBank b .empty s)).banks = (setBank b .empty s).banks := by rw [hframe]
    refine ⟨?_, ?_, ?_, ?_, fun c hc => ?_, fun _ c j _ hc => ?_, fun hk => absurd rfl (hk k)⟩
    · dsimp only
      rw [hbanks]
      exact hframe.trans (by rw [setBank_frame])
    · exact himage.trans (by rw [setBank_loader])
    · dsimp only
      rw [hbanks, setBank_selector]
    · dsimp only
      rw [bank_congr hbanks, bank_setBank, if_pos rfl]
    · dsimp only
      rw [bank_congr hbanks, bank_setBank_ne hc]
    · exact hreading c j (by rw [setBank_loader]; exact hc)

theorem referenced_eq_false_iff {s : State} {b : BankId} : s.referenced b = false ↔ ∀ u v, s.voice u = some v → v.bank ≠ b := by
  constructor
  · intro h u v hv hb
    rw [← hb, referenced_of_voice hv] at h
    cases h
  · intro h
    by_contra hx
    obtain ⟨u, v, hv, hb⟩ := voice_of_referenced (by simpa using hx)
    exact h u v hv hb

/-- The table of R69, its first row that applies. -/
theorem requestProgram_spec (n : Nat) (s : State) :
    let current := s.banks.selector
    let other := s.banks.selector.other
    let ready := fun b : BankId => ∃ h, s.bank b = .ready h ∧ h.number = n
    let keeps := ∃ k h, s.bank other = .pending k (some h) ∧ h.number = n
    let loaded := { s.panel with events := { s.panel.events with programLoaded := .unmarked } }
    let t := requestProgram n s
    t.loader.image = s.loader.image ∧ t = { s with banks := t.banks, loader := t.loader, panel := t.panel } ∧
      t.bank current = s.bank current ∧
      (ready current → t.panel = loaded ∧ t.banks.selector = current ∧
        (t.bank other = match s.bank other with
          | .pending _ (some h) => .ready h
          | .ready h => .ready h
          | _ => .empty) ∧
        (∀ k b j, s.bank other = .loading k → s.loader.reading = some (.programRead b j) → t.loader.reading = none) ∧
        ((∀ k, s.bank other ≠ .loading k) → t.loader = s.loader)) ∧
      (¬ ready current → ready other → t.panel = loaded ∧ t.banks = { s.banks with selector := other } ∧ t.loader = s.loader) ∧
      (¬ ready current → keeps → t.panel = loaded ∧ t.banks.selector = other ∧ t.loader = s.loader ∧
        ∃ k h, s.bank other = .pending k (some h) ∧ t.bank other = .ready h) ∧
      (¬ ready current → ¬ ready other → ¬ keeps → t.panel = s.panel ∧ t.banks.selector = current ∧
        ((∃ u v, s.voice u = some v ∧ v.bank = other) → t.loader = s.loader ∧
          t.bank other = .pending n (match s.bank other with
            | .ready h => some h
            | .pending _ h => h
            | _ => none)) ∧
        ((∀ u v, s.voice u = some v → v.bank ≠ other) →
          t.bank other = .loading n ∧ t.loader = { s.loader with reading := some (.programRead other n) })) := by
  intro current other ready keeps loaded t
  have hne : current ≠ other := (BankId.other_ne _).symm
  have hready : ∀ b, (s.bank b).isReady n = true ↔ ready b := fun b => isReady_iff
  by_cases hcurrent : ready current
  · have ht : t = raise .programLoaded (cancelBank other s) := if_pos ((hready current).2 hcurrent)
    obtain ⟨hframe, himage, hselector, hother, hrest, hreading, hloader⟩ := cancelBank_spec other s
    rw [ht]
    refine ⟨himage, ?_, hrest current hne, fun _ => ⟨?_, hselector, hother, hreading, hloader⟩, fun h => absurd hcurrent h,
      fun h => absurd hcurrent h, fun h => absurd hcurrent h⟩
    · rw [hframe]
      rfl
    · rw [hframe]
      rfl
  · have hskip : ¬ (s.bank current).isReady n = true := mt (hready current).1 hcurrent
    by_cases hother : ready other
    · have ht : t = raise .programLoaded (selectBank other s) := (if_neg hskip).trans (if_pos ((hready other).2 hother))
      rw [ht]
      obtain ⟨g, hg, hn⟩ := hother
      refine ⟨rfl, rfl, rfl, fun h => absurd h hcurrent, fun _ _ => ⟨rfl, rfl, rfl⟩, fun _ hk => ?_, fun _ h => absurd ⟨g, hg, hn⟩ h⟩
      obtain ⟨k, h, hk, -⟩ := hk
      rw [hk] at hg
      cases hg
    · have hskip' : ¬ (s.bank other).isReady n = true := mt (hready other).1 hother
      have hrows : t = match (s.bank other).keeps? n with
          | some h => raise .programLoaded (selectBank other (setBank other (.ready h) s))
          | none =>
            if s.referenced other then setBank other (.pending n (s.bank other).held?) s
            else { setBank other (.loading n) s with
              loader := { (setBank other (.loading n) s).loader with reading := some (.programRead other n) } } :=
        (if_neg hskip).trans (if_neg hskip')
      cases hkept : (s.bank other).keeps? n with
      | some g =>
        rw [hkept] at hrows
        replace hrows : t = raise .programLoaded (selectBank other (setBank other (.ready g) s)) := hrows
        obtain ⟨⟨k, hk⟩, hn⟩ := keeps?_iff.1 hkept
        rw [hrows]
        refine ⟨?_, ?_, ?_, fun h => absurd h hcurrent, fun _ h => absurd h hother, fun _ _ => ⟨?_, rfl, ?_, k, g, hk, ?_⟩,
          fun _ _ h => absurd ⟨k, g, hk, hn⟩ h⟩
        · exact congrArg Loader.image (setBank_loader s other (.ready g))
        · rw [setBank_frame]
          rfl
        · exact bank_setBank_ne hne _ s
        · rw [setBank_frame]
          rfl
        · exact setBank_loader s other (.ready g)
        · exact (bank_setBank s other other (.ready g)).trans (if_pos rfl)
      | none =>
        rw [hkept] at hrows
        have hno : ¬ keeps := by
          rintro ⟨k, h, hk, hn⟩
          rw [keeps?_iff.2 ⟨⟨k, hk⟩, hn⟩] at hkept
          cases hkept
        by_cases href : s.referenced other = true
        · replace hrows : t = setBank other (.pending n (s.bank other).held?) s := hrows.trans (if_pos href)
          rw [hrows]
          refine ⟨?_, ?_, bank_setBank_ne hne _ s, fun h => absurd h hcurrent, fun _ h => absurd h hother, fun _ h => absurd h hno,
            fun _ _ _ => ⟨setBank_panel s other _, setBank_selector s other _, fun _ => ⟨setBank_loader s other _, ?_⟩, fun h => ?_⟩⟩
          · rw [setBank_loader]
          · rw [setBank_loader, setBank_panel]
            exact setBank_frame other _ s
          · rw [bank_setBank, if_pos rfl]
            cases s.bank other <;> rfl
          · rw [referenced_eq_false_iff.2 h] at href
            cases href
        · replace hrows := hrows.trans (if_neg href)
          rw [hrows]
          have hfree : ∀ u v, s.voice u = some v → v.bank ≠ other := referenced_eq_false_iff.1 (by simpa using href)
          refine ⟨?_, ?_, bank_setBank_ne hne _ s, fun h => absurd h hcurrent, fun _ h => absurd h hother, fun _ h => absurd h hno,
            fun _ _ _ => ⟨setBank_panel s other _, setBank_selector s other _, fun ⟨u, v, hv, hb⟩ => absurd hb (hfree u v hv),
              fun _ => ⟨?_, ?_⟩⟩⟩
          · show (setBank other (.loading n) s).loader.image = _
            rw [setBank_loader]
          · rw [setBank_frame]
          · exact (bank_setBank s other other (.loading n)).trans (if_pos rfl)
          · dsimp only
            rw [setBank_loader]

/-- Settles O46: the message taken, then the table of R69. -/
theorem programTakesFirstRow : Obligations.ProgramTakesFirstRow := by
  intro s m rest hr hhead hb hroom
  have hexec : exec .program s = .next (takeProgram m.b1.toNat (s.headTaken rest)) :=
    exec_message (f := onProgram) rfl hr hhead (readMessage_program hb) (by simp only [Message.room]; omega) rfl
  have hcount : (s.headTaken rest).programCount = s.programCount := rfl
  refine ⟨fun hlarge => ?_, fun hsmall => ⟨_, ?_, requestProgram_spec m.b1.toNat (s.headTaken rest)⟩⟩
  · rw [hexec, takeProgram, hcount, if_pos hlarge]
    rfl
  · rw [hexec, takeProgram, hcount, if_neg (Nat.not_le.2 hsmall)]

end Sys2Proof.Machine

/-!
STATUS and the section report (R184, R187, R188, spec 11.4). O48.
-/

namespace Sys2Proof.Machine

/-! ### STATUS -/

theorem report_report (m : EventMark) : m.report.report = m.report := by cases m <;> rfl

theorem mark_foldl_report (l : List Event) (es : EventSet) (f : Event) :
    (l.foldl (fun acc e => acc.setMark e (acc.mark e).report) es).mark f = if f ∈ l then (es.mark f).report else es.mark f := by
  induction l generalizing es with
  | nil => rfl
  | cons e l ih =>
    rw [List.foldl_cons, ih, EventSet.mark_setMark]
    by_cases hf : f = e
    · subst hf
      simp [report_report]
    · simp [hf]

/-- Every standing event is marked reported (R187). -/
theorem mark_reportAll (es : EventSet) (e : Event) : es.reportAll.mark e = if es.mark e = .absent then .absent else .reported := by
  rw [EventSet.reportAll, mark_foldl_report, if_pos (mem_allEvents e)]
  cases es.mark e <;> rfl

theorem ImageState.code_le (x : ImageState) : x.code ≤ 3 := by cases x <;> simp [ImageState.code]

theorem LineState.code_le (x : LineState) : x.code ≤ 4 := by cases x <;> decide

theorem BankState.code_le (x : BankState) : x.code.1 ≤ 3 := by cases x <;> simp [BankState.code]

/-- The byte of the station number, the image state and the line state (spec 11.4). -/
theorem stateByte_spec {station image line : Nat} (hs : station ≤ 7) (hi : image ≤ 3) (hl : line ≤ 4) :
    (BitVec.ofNat 8 (station + 8 * image + 32 * line)).toNat % 8 = station ∧
    (BitVec.ofNat 8 (station + 8 * image + 32 * line)).toNat / 8 % 4 = image ∧
    (BitVec.ofNat 8 (station + 8 * image + 32 * line)).toNat / 32 = line := by
  rw [BitVec.toNat_ofNat]
  omega

/-- A bank's byte, the program number in its four bits (spec 11.4). -/
theorem bankByte_spec {x : BankState} (h : x.code.2 ≤ 15) {flag : Nat} (hflag : flag = 0 ∨ flag = 128) :
    (BitVec.ofNat 8 (x.byte + flag)).toNat % 4 = x.code.1 ∧ (BitVec.ofNat 8 (x.byte + flag)).toNat / 4 % 16 = x.code.2 ∧
    (BitVec.ofNat 8 (x.byte + flag)).getLsbD 7 = decide (flag = 128) := by
  have hcode := x.code_le
  unfold BankState.byte
  refine ⟨?_, ?_, ?_⟩
  · rw [BitVec.toNat_ofNat]
    omega
  · rw [BitVec.toNat_ofNat]
    omega
  · rw [BitVec.getLsbD_ofNat, Nat.testBit_eq_decide_div_mod_eq]
    simp only [show (7 < 8) = True from eq_true (by decide), decide_true, Bool.true_and, decide_eq_decide]
    omega

theorem optionalNote_toNat (n : Option Nat) : (∀ x ∈ n, x ≤ 127) → (optionalNote n).toNat = match n with
    | some n => 128 + n
    | none => 0 := by
  intro h
  cases n with
  | none => rfl
  | some n =>
    have hn := h n rfl
    show (BitVec.ofNat 8 (128 + n)).toNat = _
    rw [BitVec.toNat_ofNat]
    dsimp only
    omega

theorem exec_status {s : State} {m : Octets} {rest : List Octets} (hr : s.Running) (hhead : s.panel.inFifo = m :: rest)
    (hb : m.b0 = 7) (hroom : s.panel.outFifo.length ≤ 4) : exec .status s = .next (takeStatus (s.headTaken rest)) :=
  exec_message (f := onStatus) rfl hr hhead (readMessage_status hb) (by simp only [Message.room]; omega) rfl

/-! ### The section report -/

theorem headWaits_eq_false {s : State} (h : ∀ m rest, s.panel.inFifo = m :: rest → (readMessage m).room + s.panel.outFifo.length ≤ 8) :
    s.headWaits = false := by
  unfold State.headWaits
  split
  · rfl
  · next m rest hin => exact decide_eq_false (Nat.not_lt.2 (h m rest hin))

theorem nextReported_eq_some {s : State} {last : Option Nat} {before after : List MapEntry} {e : MapEntry}
    (hsplit : s.map.entries = before ++ e :: after) (hbefore : ∀ x ∈ before, ∃ k, last = some k ∧ x.key ≤ k)
    (he : ∀ k, last = some k → k < e.key) : s.nextReported last = some e := by
  cases last with
  | none =>
    cases before with
    | nil => simp only [State.nextReported, hsplit, List.nil_append, List.head?_cons]
    | cons x before =>
      obtain ⟨k, hk, -⟩ := hbefore x List.mem_cons_self
      cases hk
  | some k =>
    have hnone : before.find? (fun e => decide (k < e.key)) = none := List.find?_eq_none.2 fun x hx => by
      obtain ⟨j, hj, hle⟩ := hbefore x hx
      obtain rfl := Option.some.inj hj
      simpa using hle
    simp only [State.nextReported, hsplit, List.find?_append, hnone, Option.none_or]
    exact List.find?_cons_of_pos (decide_eq_true (he k rfl))

theorem nextReported_eq_none {s : State} {last : Option Nat} (h : ∀ x ∈ s.map.entries, ∃ k, last = some k ∧ x.key ≤ k) :
    s.nextReported last = none := by
  cases last with
  | none =>
    cases hentries : s.map.entries with
    | nil => simp only [State.nextReported, hentries, List.head?_nil]
    | cons x rest =>
      obtain ⟨k, hk, -⟩ := h x (by rw [hentries]; exact List.mem_cons_self)
      cases hk
  | some k =>
    refine List.find?_eq_none.2 fun x hx => ?_
    obtain ⟨j, hj, hle⟩ := h x hx
    obtain rfl := Option.some.inj hj
    simpa using hle

theorem exec_sectionEntryPlaced {s : State} {rep : Report} (hr : s.Running) (hrep : s.panel.report = some rep)
    (hroom : s.panel.outFifo.length < 8) (hwaits : s.headWaits = false) : exec .sectionEntryPlaced s = .next
      (match s.nextReported rep.lastKey with
      | some e => { s with panel := { s.panel with
          outFifo := s.panel.outFifo ++ [.sectionEntry s.panel.reportNumber e]
          report := some { lastKey := some e.key, count := rep.count + 1 } } }
      | none => { s with panel := { s.panel with
          outFifo := s.panel.outFifo ++ [.sectionEnd s.panel.reportNumber rep.count], report := none } }) := by
  have hexec : exec .sectionEntryPlaced s = .next (placeSection s) := exec_inside rfl hr rfl rfl
  have hlimit : s.panel.outFifo.length < Config.fifoLimit := hroom
  rw [hexec]
  simp only [placeSection, hrep, hlimit, hwaits, and_self, if_true]
  cases s.nextReported rep.lastKey <;> rfl

/-- Settles O48: the four records of STATUS with their bytes, and the next record of a report. -/
theorem reportsPlaceRecords : Obligations.ReportsPlaceRecords := by
  refine ⟨fun s m rest hr hhead hb hroom hlead hroot ha hbb => ?_, fun s m rest hr hhead hb hroom => ?_,
    fun s rep hr hrep hroom hwait => ⟨fun before after e hsplit hbefore he => ?_, fun hall => ?_⟩, fun s h => ?_⟩
  · have hstate := stateByte_spec (station := s.power.station.val) (by omega) s.loader.image.code_le s.line.state.code_le
    refine ⟨_, _, _, _, _, _, s.panel.events.bits, exec_status hr hhead hb hroom, rfl, hstate, ?_, ?_, ?_, ?_,
      fun e => EventSet.bits_getLsbD_bit s.panel.events e, fun e => mark_reportAll s.panel.events e, rfl⟩
    · show (BitVec.ofNat 8 (s.banks.a.byte + match s.banks.selector with | .bankA => 0 | .bankB => 128)).toNat % 4 = _ ∧
        (BitVec.ofNat 8 (s.banks.a.byte + match s.banks.selector with | .bankA => 0 | .bankB => 128)).toNat / 4 % 16 = _ ∧
        (BitVec.ofNat 8 (s.banks.a.byte + match s.banks.selector with | .bankA => 0 | .bankB => 128)).getLsbD 7 = _
      cases s.banks.selector with
      | bankA => exact bankByte_spec ha (.inl rfl)
      | bankB => exact bankByte_spec ha (.inr rfl)
    · obtain ⟨hcode, hnumber, -⟩ := bankByte_spec hbb (.inl rfl)
      exact ⟨hcode, hnumber⟩
    · show (optionalNote s.reportedLead).toNat = _
      cases himage : s.image? with
      | none => simp [State.reportedLead, himage, optionalNote]
      | some img =>
        rw [show s.reportedLead = some s.resolver.leadNote by simp only [State.reportedLead, himage],
          optionalNote_toNat _ fun x hx => by obtain rfl := Option.some.inj hx; exact hlead]
        rfl
    · exact optionalNote_toNat s.pitch.root hroot
  · exact exec_message (f := onSection) rfl hr hhead (readMessage_section hb) (by simpa [Message.room] using hroom) rfl
  · rw [exec_sectionEntryPlaced hr hrep hroom (headWaits_eq_false hwait), nextReported_eq_some hsplit hbefore he]
  · rw [exec_sectionEntryPlaced hr hrep hroom (headWaits_eq_false hwait), nextReported_eq_none hall]
  · have hexec : exec .sectionEntryPlaced s = unlessHeld s placeSection := rfl
    have hsame : placeSection s = s := by
      unfold placeSection
      split
      · rfl
      · next rep hrep =>
        refine if_neg fun ⟨hroom, hwaits⟩ => ?_
        obtain h | h | ⟨m, rest, hin, hfull⟩ := h
        · rw [hrep] at h
          cases h
        · exact absurd (show s.panel.outFifo.length < 8 from hroom) (Nat.not_lt.2 h)
        · simp only [State.headWaits, hin, decide_eq_false_iff_not] at hwaits
          exact hwaits hfull
    rw [hexec, unlessHeld, hsame]
    split <;> rfl

end Sys2Proof.Machine

/-!
One sample period (R159, R160, R169 to R173) and the fingering chart (R3 to R5). O41 and O12.
-/

namespace Sys2Proof.Machine

/-! ### One sample period -/

/-- The state after a sample, before a saturated one is counted (R160, R169 to R173). -/
def sampled (s : State) : State :=
  { mapSlots advancePhase s with audio := { s.audio with
      sampleIndex := min 48 (s.audio.sampleIndex + 1)
      mix := (mapSlots advancePhase s).mixSum (min 48 (s.audio.sampleIndex + 1))
      engineSample := saturate (scaleMix ((mapSlots advancePhase s).mixSum (min 48 (s.audio.sampleIndex + 1))) s.masterGain)
      sent := streamFrame s.streamSample } }

theorem renderSample_eq (s : State) : renderSample s =
    if (sampled s).audio.engineSample = scaleMix (sampled s).audio.mix s.masterGain then sampled s else clip (sampled s) := rfl

theorem mixSum_eq (s : State) (k : Nat) :
    s.mixSum k = (([0, 1, 2, 3, 4, 5, 6, 7] : List (Fin 8)).map fun u => s.slotOutput k (s.slot u)).sum := by
  simp only [State.mixSum, allEight, List.foldl_cons, List.foldl_nil, List.map_cons, List.map_nil, List.sum_cons, List.sum_nil]
  omega

theorem scaleMix_eq (x : Int) (m : Nat) : scaleMix x m = (x * m).fdiv 256 := (shiftRight_8_eq_fdiv _).2

theorem sampleWord_toInt {x : Int} (hlow : -8388608 ≤ x) (hhigh : x ≤ 8388607) : (sampleWord x).toInt = x := by
  rw [sampleWord, BitVec.toInt_ofInt]
  exact Int.bmod_eq_of_le (by norm_num; omega) (by norm_num; omega)

theorem streamSample_eq (s : State) : s.streamSample = if s.image?.isSome then s.audio.engineSample else 0 := by
  unfold State.streamSample State.image?
  cases s.loader.image <;> rfl

/-- The bits of a stream frame, left channel first and most significant bit first (R172). -/
theorem streamFrame_bits (f : StreamFrame) : f.bits.length = 48 ∧ ∀ i < 24, f.bits[i]? = some (f.left.getLsbD (23 - i)) ∧
    f.bits[24 + i]? = some (f.right.getLsbD (23 - i)) := by
  have hlen : ∀ w : BitVec 24, (channelBits w).length = 24 := fun w => by simp [channelBits]
  have hget : ∀ (w : BitVec 24) (i : Nat), i < 24 → (channelBits w)[i]? = some (w.getLsbD (23 - i)) := fun w i hi => by
    simp [channelBits, hi]
  refine ⟨by rw [StreamFrame.bits, List.length_append, hlen, hlen], fun i hi => ⟨?_, ?_⟩⟩
  · rw [StreamFrame.bits, List.getElem?_append_left (by rw [hlen]; exact hi), hget _ i hi]
  · rw [StreamFrame.bits, List.getElem?_append_right (by rw [hlen]; omega), hlen, Nat.add_sub_cancel_left, hget _ i hi]

theorem slot_advanced (s : State) (u : Fin 8) : (mapSlots advancePhase s).slot u = { s.slot u with phase := match s.voice u with
    | some v => (s.slot u).phase + BitVec.ofNat 32 v.increment
    | none => (s.slot u).phase } := by
  rw [slot_mapSlots, State.voice]
  obtain ⟨_, _, _, _, voice⟩ := s.slot u
  cases voice <;> rfl

/-- What a sample leaves, whether it is counted as saturated or not. -/
theorem sampled_spec (s : State) :
    (sampled s).audio.sent.right = (sampled s).audio.sent.left ∧
    (-8388608 ≤ s.audio.engineSample → s.audio.engineSample ≤ 8388607 →
      (sampled s).audio.sent.left.toInt = if s.image?.isSome then s.audio.engineSample else 0) ∧
    (sampled s).audio.mix = (([0, 1, 2, 3, 4, 5, 6, 7] : List (Fin 8)).map fun u =>
      (sampled s).slotOutput (sampled s).audio.sampleIndex ((sampled s).slot u)).sum ∧
    (sampled s).audio.engineSample =
      max (-8388608) (min 8388607 (((sampled s).audio.mix * ((sampled s).masterGain : Int)).fdiv 256)) := by
  refine ⟨rfl, fun hlow hhigh => ?_, mixSum_eq _ _, ?_⟩
  · show (sampleWord s.streamSample).toInt = _
    rw [streamSample_eq]
    split
    · exact sampleWord_toInt hlow hhigh
    · rfl
  · show saturate (scaleMix _ _) = _
    rw [scaleMix_eq]
    rfl

/-- Settles O41: the sample, and the count of a saturated one. -/
theorem samplePeriod : Obligations.SamplePeriod := by
  intro s hr hq
  have hexec : exec .sample s = .next (renderSample s) := exec_quiet rfl hr hq
  obtain ⟨hchannels, hsent, hmix, hsample⟩ := sampled_spec s
  obtain ⟨hlength, hbits⟩ := streamFrame_bits (sampled s).audio.sent
  have hscale : scaleMix (sampled s).audio.mix s.masterGain = ((sampled s).audio.mix * ((sampled s).masterGain : Int)).fdiv 256 :=
    scaleMix_eq _ _
  by_cases hclip : (sampled s).audio.engineSample = ((sampled s).audio.mix * ((sampled s).masterGain : Int)).fdiv 256
  · have hrender : renderSample s = sampled s := by rw [renderSample_eq, hscale, if_pos hclip]
    exact ⟨_, hexec.trans (congrArg _ hrender), hchannels, hsent, hlength, hbits, rfl, slot_advanced s, hmix,
      fun u hu => State.slotOutput_of_free _ _ hu, ⟨hsample, fun _ => ⟨rfl, rfl⟩, fun h => absurd hclip h⟩, rfl⟩
  · have hrender : renderSample s = clip (sampled s) := by rw [renderSample_eq, hscale, if_neg hclip]
    exact ⟨_, hexec.trans (congrArg _ hrender), hchannels, hsent, hlength, hbits, rfl, slot_advanced s, hmix,
      fun u hu => State.slotOutput_of_free _ _ hu, ⟨hsample, fun h => absurd h hclip, fun _ => ⟨rfl, rfl⟩⟩, rfl⟩

/-! ### The fingering chart -/

theorem getLsbD_and_not (x y : BitVec 24) (k : Fin 24) : (x &&& ~~~y).getLsbD k.val = (x.getLsbD k.val && !y.getLsbD k.val) := by
  rw [BitVec.getLsbD_and, BitVec.getLsbD_not, decide_eq_true k.isLt, Bool.true_and]

theorem octaveKeyBit_getLsbD (key : Option (Fin 24)) (k : Fin 24) : (octaveKeyBit key).getLsbD k.val = decide (key = some k) := by
  cases key with
  | none => simp [octaveKeyBit]
  | some j =>
    rw [octaveKeyBit, BitVec.getLsbD_ofNat, decide_eq_true k.isLt, Bool.true_and, Nat.testBit_two_pow]
    simp [Fin.ext_iff]

theorem octaveKeySet_getLsbD (img : Image) (k : Fin 24) :
    img.octaveKeySet.getLsbD k.val = decide (∃ i : Fin 4, img.octaveKeys.get i = some k) := by
  have hexists : (∃ i : Fin 4, img.octaveKeys.get i = some k) ↔ img.octaveKeys.e0 = some k ∨ img.octaveKeys.e1 = some k ∨
      img.octaveKeys.e2 = some k ∨ img.octaveKeys.e3 = some k := by
    simp only [Fin.exists_fin_succ, IsEmpty.exists_iff, or_false]
    exact Iff.rfl
  rw [Bool.eq_iff_iff, decide_eq_true_eq, hexists]
  simp only [Image.octaveKeySet, BitVec.getLsbD_or, octaveKeyBit_getLsbD, Bool.or_eq_true, decide_eq_true_eq, or_assoc]

theorem octaveWeight_le (keys : BitVec 24) (key : Option (Fin 24)) (w : Nat) : octaveWeight keys key w ≤ w := by
  unfold octaveWeight
  split
  · split <;> omega
  · exact Nat.zero_le w

/-- Settles O12: the octave keys bit by bit, and the first match by `List.find?`. -/
theorem chartGivesCandidate : Obligations.ChartGivesCandidate := by
  intro img keys
  refine ⟨fun k => getLsbD_and_not keys img.keyMask k, fun k => ?_, ?_, ?_, fun hnone => ?_, fun before after e hchart hbefore he => ?_⟩
  · rw [Image.chartKeys, getLsbD_and_not, octaveKeySet_getLsbD]
  · simp only [List.map_cons, List.map_nil, List.sum_cons, List.sum_nil, Nat.add_zero, ← Nat.add_assoc]
    rfl
  · have h0 := octaveWeight_le keys img.octaveKeys.e0 1
    have h1 := octaveWeight_le keys img.octaveKeys.e1 2
    have h2 := octaveWeight_le keys img.octaveKeys.e2 4
    have h3 := octaveWeight_le keys img.octaveKeys.e3 8
    rw [Image.octaveIndex]
    omega
  · have hfind : img.chart.find? (fun e => e.hits (img.chartKeys keys)) = none := List.find?_eq_none.2 fun e he => by
      simpa [ChartEntry.hits] using hnone e he
    simp only [Image.candidate, hfind]
  · have hfind : img.chart.find? (fun e => e.hits (img.chartKeys keys)) = some e := by
      rw [hchart, List.find?_append, List.find?_eq_none.2 fun x hx => by simpa [ChartEntry.hits] using hbefore x hx, Option.none_or]
      exact List.find?_cons_of_pos (by simpa [ChartEntry.hits] using he)
    simp only [Image.candidate, hfind]

end Sys2Proof.Machine

/-!
One frame of the Sensor Port (R1 to R8, R13, R18, R19, R22, R23 to R35, R37 to R43, R56, R100, R116, R193), block by block: the receiver,
the Note Resolver, the Breath Shaper and the Gesture Detectors.
-/

namespace Sys2Proof.Machine

/-! ### The receiver -/

/-- The receiver's part of a frame moves the receiver and the event of a loss that ends (R18, R22). -/
theorem receiveFrame_frame (f : SensorFrame) (s : State) : receiveFrame f s = { s with
    sensor := (receiveFrame f s).sensor
    panel := { s.panel with events := { s.panel.events with sensorBack := (receiveFrame f s).panel.events.sensorBack } } } := by
  unfold receiveFrame
  dsimp only
  split <;> rfl

theorem receiveFrame_sensor (f : SensorFrame) (s : State) : (receiveFrame f s).sensor =
    { receiver := .receiving
      missingTimer := 0
      lastFrame := some f
      missedFrames := min Config.counterMax (s.sensor.missedFrames + skipped s.sensor.lastFrame f.seq) } := by
  unfold receiveFrame
  dsimp only
  split <;> rfl

theorem receiveFrame_leaves (f : SensorFrame) (s : State) :
    let t := receiveFrame f s
    t.power = s.power ∧ t.loader.image = s.loader.image ∧ t.map = s.map ∧ t.pitch = s.pitch ∧ t.audio = s.audio ∧
      t.banks.selector = s.banks.selector ∧ t.line.state = s.line.state := by
  rw [receiveFrame_frame]
  exact ⟨rfl, rfl, rfl, rfl, rfl, rfl, rfl⟩

theorem receiveFrame_of_lost {f : SensorFrame} {s : State} (h : s.sensor.receiver = .lost) :
    (receiveFrame f s).panel.events.sensorBack = .unmarked := by
  unfold receiveFrame
  simp only [h, decide_true, if_true]
  rfl

theorem receiveFrame_of_not_lost {f : SensorFrame} {s : State} (h : s.sensor.receiver ≠ .lost) :
    (receiveFrame f s).panel.events.sensorBack = s.panel.events.sensorBack := by
  unfold receiveFrame
  simp [h]

/-- The frames skipped, as a difference of sequence numbers (R19). -/
theorem skipped_eq {g : SensorFrame} (hg : g.seq < 256) (q : Nat) :
    skipped (some g) q = if q = g.seq then 0 else (((q : Int) - g.seq - 1) % 256).toNat := by
  unfold skipped
  dsimp only
  split
  · rfl
  · omega

/-! ### The current program -/

/-- A touch of voices, ranks and records leaves the current program (R68, R71). -/
theorem Touch.currentProgram {s t : State} (h : Touch s t) : t.currentProgram = s.currentProgram := by
  have hload : ∀ (b : BankId) (x : State), (loadUnreferenced b x).currentProgram = x.currentProgram := fun b x => by
    have hselector := (voiceWork_loadUnreferenced b x).selector
    unfold State.currentProgram
    rw [hselector, loadUnreferenced_bank]
    by_cases hb : x.banks.selector = b ∧ x.referenced b = false
    · rw [if_pos hb, hb.1]
      cases x.bank b <;> rfl
    · rw [if_neg hb]
  cases h with
  | rank | counter | settings | restate | renote => rfl
  | enqueued r => unfold enqueue; rfl
  | remove p => unfold removeRecords; rfl
  | take role n b o u hn hb => exact (hload _ _).trans (hload _ _)

theorem Touches.currentProgram {s t : State} (h : Touches s t) : t.currentProgram = s.currentProgram :=
  h.keeps (law := fun x => x.currentProgram = s.currentProgram) (fun _ _ ht hs => ht.currentProgram.trans hs) rfl

theorem recomputeLead_currentProgram (s : State) : (recomputeLead s).currentProgram = s.currentProgram := by
  unfold recomputeLead
  dsimp only
  split
  · rfl
  · exact (touches_deliverLeadChange (s := { s with resolver := { s.resolver with leadNote := s.resolver.computeLead } })
      (fold_le _)).currentProgram

/-! ### The Note Resolver -/

/-- The Note Resolver takes the candidate of a frame, or not (R2 to R8, R12). -/
theorem resolveFrame_cases (img : Image) (keys : BitVec 24) (s : State) :
    (∃ n, img.candidate (img.maskedKeys keys) = .note n ∧ s.settleFrames ≤ (s.resolver.frame img keys).stability ∧
      n ≠ s.resolver.taken ∧
      resolveFrame img keys s = recomputeLead { s with resolver := { s.resolver.frame img keys with taken := n } }) ∨
    ((img.candidate (img.maskedKeys keys) = .unresolved ∨ (s.resolver.frame img keys).stability < s.settleFrames ∨
        img.candidate (img.maskedKeys keys) = .note s.resolver.taken) ∧
      resolveFrame img keys s = { s with resolver := s.resolver.frame img keys }) := by
  have hresolve : resolveFrame img keys s =
      if s.settleFrames ≤ (s.resolver.frame img keys).stability then
        takeCandidate (img.candidate (img.maskedKeys keys)) { s with resolver := s.resolver.frame img keys }
      else { s with resolver := s.resolver.frame img keys } := rfl
  rw [hresolve]
  split
  · next hstable =>
    cases hc : img.candidate (img.maskedKeys keys) with
    | unresolved => exact .inr ⟨.inl rfl, rfl⟩
    | note n =>
      by_cases hn : n = s.resolver.taken
      · exact .inr ⟨.inr (.inr (congrArg Candidate.note hn)), if_pos hn⟩
      · exact .inl ⟨n, rfl, hstable, hn, if_neg hn⟩
  · next hstable => exact .inr ⟨.inr (.inl (Nat.lt_of_not_le hstable)), rfl⟩

/-- What the Note Resolver leaves alone (R13). -/
theorem resolveFrame_leaves (img : Image) (keys : BitVec 24) (s : State) :
    VoiceWork { s with resolver := (resolveFrame img keys s).resolver } (resolveFrame img keys s) := by
  obtain ⟨n, -, -, -, h⟩ | ⟨-, h⟩ := resolveFrame_cases img keys s
  · have hwork := recomputeLead_leaves { s with resolver := { s.resolver.frame img keys with taken := n } }
    rw [h, recomputeLead_resolver]
    exact hwork
  · rw [h]
    exact .refl _

theorem resolveFrame_currentProgram (img : Image) (keys : BitVec 24) (s : State) :
    (resolveFrame img keys s).currentProgram = s.currentProgram := by
  obtain ⟨n, -, -, -, h⟩ | ⟨-, h⟩ := resolveFrame_cases img keys s
  · rw [h]
    exact recomputeLead_currentProgram _
  · rw [h]
    rfl

/-- The resolver after a frame, field by field (R2 to R8, R12). -/
theorem resolveFrame_resolver {img : Image} {keys : BitVec 24} {s t : State} (ht : t = resolveFrame img keys s) :
    t.resolver.keySet = img.maskedKeys keys ∧
    t.resolver.previous = some (img.candidate (img.maskedKeys keys)) ∧
    t.resolver.stability = (s.resolver.frame img keys).stability ∧
    t.resolver.unresolvedFrames = (s.resolver.frame img keys).unresolvedFrames ∧
    (∀ n, img.candidate (img.maskedKeys keys) = .note n → s.settleFrames ≤ t.resolver.stability → n ≠ s.resolver.taken →
      t.resolver.taken = n ∧ t.resolver.leadNote = fold (n + 12 * s.resolver.octaveShift + s.resolver.transpose)) ∧
    ((img.candidate (img.maskedKeys keys) = .unresolved ∨ t.resolver.stability < s.settleFrames ∨
        img.candidate (img.maskedKeys keys) = .note s.resolver.taken) →
      t.resolver.taken = s.resolver.taken ∧ t.resolver.leadNote = s.resolver.leadNote) ∧
    t.resolver.octaveShift = s.resolver.octaveShift ∧ t.resolver.transpose = s.resolver.transpose := by
  obtain ⟨n, hc, hstable, hn, h⟩ | ⟨hkept, h⟩ := resolveFrame_cases img keys s
  · rw [ht, h, recomputeLead_resolver]
    refine ⟨rfl, rfl, rfl, rfl, fun m hm _ _ => ?_, fun hkept => ?_, rfl, rfl⟩
    · obtain rfl := Candidate.note.inj (hc.symm.trans hm)
      exact ⟨rfl, rfl⟩
    · obtain hu | hlow | ht := hkept
      · cases hc.symm.trans hu
      · exact absurd hstable (Nat.not_le_of_lt hlow)
      · exact absurd (Candidate.note.inj (hc.symm.trans ht)) hn
  · rw [ht, h]
    refine ⟨rfl, rfl, rfl, rfl, fun m hm hstable hne => ?_, fun _ => ⟨rfl, rfl⟩, rfl, rfl⟩
    obtain hu | hlow | ht := hkept
    · cases hm.symm.trans hu
    · exact absurd hstable (Nat.not_le_of_lt hlow)
    · exact absurd (Candidate.note.inj (hm.symm.trans ht)) hne

/-- A frame that keeps the lead note, or finds no SOUNDING lead, moves the resolver alone (R13). -/
theorem resolveFrame_of_not_delivered {img : Image} {keys : BitVec 24} {s : State}
    (h : (resolveFrame img keys s).resolver.leadNote = s.resolver.leadNote ∨ s.breath.articulation ≠ .sounding ∨ s.leadTag = none) :
    resolveFrame img keys s = { s with resolver := (resolveFrame img keys s).resolver } := by
  obtain ⟨n, -, -, -, ht⟩ | ⟨-, ht⟩ := resolveFrame_cases img keys s
  · rw [ht, recomputeLead_resolver] at h ⊢
    refine recomputeLead_of_not_delivered ?_
    obtain hlead | ha | hnone := h
    · exact .inr (.inr hlead)
    · exact .inl ha
    · exact .inr (.inl hnone)
  · rw [ht]

/-! ### The Breath Shaper -/

/-- The breath after a frame (R23, R24, R26 to R33): the count of a capture, or the quantities of the frame with the articulation they
lead to. -/
def Breath.heard (b : Breath) (img : Image) (f : SensorFrame) (gain dead onset : Nat) : Breath :=
  match b.baseline with
  | none =>
    if b.captureCount < Config.captureFrames then
      { b with captureCount := b.captureCount + 1, captureSum := b.captureSum + f.breath }
    else b
  | some z =>
    match b.articulation with
    | .silent => (b.measure img z f.breath f.lip gain dead).fromSilent img onset
    | .onset => (b.measure img z f.breath f.lip gain dead).fromOnset img onset
    | .sounding =>
      if min 4095 (f.breath - z) < img.tOff then
        { b.measure img z f.breath f.lip gain dead with articulation := .silent }
      else b.measure img z f.breath f.lip gain dead

/-- The breath after a frame under the current program. -/
def State.heard (s : State) (img : Image) (f : SensorFrame) : Breath :=
  s.breath.heard img f s.bendParameters.1 s.bendParameters.2 s.onsetFrames

/-- A frame ends the note that sounds (R33). -/
def Breath.Ends (b : Breath) (img : Image) (f : SensorFrame) : Prop :=
  b.articulation = .sounding ∧ ∃ z, b.baseline = some z ∧ min 4095 (f.breath - z) < img.tOff

theorem heard_congr {s t : State} (hbreath : t.breath = s.breath) (hprogram : t.currentProgram = s.currentProgram) (img : Image)
    (f : SensorFrame) : t.heard img f = s.heard img f := by
  unfold State.heard State.bendParameters State.onsetFrames
  rw [hbreath, hprogram]

/-- A frame that ends no note moves the breath alone (R24, R30 to R33). -/
theorem breatheFrame_of_not_ends {img : Image} {f : SensorFrame} {s : State} (h : ¬ s.breath.Ends img f) :
    breatheFrame img f s = { s with breath := s.heard img f } := by
  unfold breatheFrame State.heard Breath.heard
  cases hbase : s.breath.baseline with
  | none =>
    dsimp only
    rw [hbase]
    split <;> rfl
  | some z =>
    have hmeasure : (s.breath.measure img z f.breath f.lip s.bendParameters.1 s.bendParameters.2).articulation =
        s.breath.articulation := rfl
    have hnet : (s.breath.measure img z f.breath f.lip s.bendParameters.1 s.bendParameters.2).net = min 4095 (f.breath - z) := rfl
    dsimp only [evaluateBreath]
    rw [hmeasure]
    cases ha : s.breath.articulation with
    | silent => rfl
    | onset => rfl
    | sounding =>
      have hloud : ¬ min 4095 (f.breath - z) < img.tOff := fun hlow => h ⟨ha, z, hbase, hlow⟩
      dsimp only
      rw [hnet, if_neg hloud, if_neg hloud]

/-- A frame that ends a note silences the articulation, and the release is delivered (R33, R59). -/
theorem breatheFrame_of_ends {img : Image} {f : SensorFrame} {s : State} (h : s.breath.Ends img f) :
    breatheFrame img f s = releaseAll { s with breath := s.heard img f } := by
  obtain ⟨ha, z, hbase, hlow⟩ := h
  have hmeasure : (s.breath.measure img z f.breath f.lip s.bendParameters.1 s.bendParameters.2).articulation =
      s.breath.articulation := rfl
  have hnet : (s.breath.measure img z f.breath f.lip s.bendParameters.1 s.bendParameters.2).net = min 4095 (f.breath - z) := rfl
  unfold breatheFrame State.heard Breath.heard
  rw [hbase]
  dsimp only [evaluateBreath]
  rw [hmeasure, ha, hnet]
  dsimp only
  rw [if_pos hlow, if_pos hlow]
  rfl

theorem breatheFrame_leaves (img : Image) (f : SensorFrame) (s : State) :
    VoiceWork { s with breath := s.heard img f } (breatheFrame img f s) := by
  by_cases h : s.breath.Ends img f
  · rw [breatheFrame_of_ends h]
    exact voiceWork_releaseAll _
  · rw [breatheFrame_of_not_ends h]
    exact .refl _

/-! ### One frame -/

/-- The state after the receiver and the Note Resolver took a frame. -/
def State.resolved (s : State) (img : Image) (f : SensorFrame) : State := resolveFrame img f.keys (receiveFrame f s)

/-- The detectors after a frame. -/
def State.detected (s : State) (img : Image) (f : SensorFrame) : Four Detector :=
  allDetectors.foldl (img.detectorFrame
    { net := if s.breath.baseline.isSome then (s.heard img f).net else 0
      rise := if s.breath.baseline.isSome then (s.heard img f).rise else 0
      lip := f.lip
      keys := img.maskedKeys f.keys }) s.detectors

section
variable {s : State} {img : Image} {f : SensorFrame} {burst : List Byte}

theorem image?_of_loaded (h : s.loader.image = .loaded img) : s.image? = some img := by
  simp only [State.image?, h]

theorem receiveFrame_breath : (receiveFrame f s).breath = s.breath := by
  rw [receiveFrame_frame]

theorem resolved_breath : (s.resolved img f).breath = s.breath :=
  (resolveFrame_leaves img f.keys _).breath.trans receiveFrame_breath

theorem resolved_heard : (s.resolved img f).heard img f = s.heard img f := by
  refine heard_congr resolved_breath ((resolveFrame_currentProgram _ _ _).trans ?_) img f
  rw [receiveFrame_frame]
  rfl

/-- A frame while an image is installed: the receiver, the resolver, the breath with the release it may cause, the detectors. -/
theorem exec_sensorFrame (hr : s.Running) (hq : s.Quiet) (hf : readBurst burst = some f) (himg : s.loader.image = .loaded img) :
    exec (.sensorFrame burst) s = .next { breatheFrame img f (s.resolved img f) with detectors := s.detected img f } := by
  have hexec : exec (.sensorFrame burst) s = .next (takeBurst burst s) := exec_quiet rfl hr hq
  have hburst : takeBurst burst s = passFrame f (receiveFrame f s) := by
    unfold takeBurst
    rw [hf]
  have himage : (receiveFrame f s).image? = some img := by
    rw [receiveFrame_frame]
    exact image?_of_loaded himg
  have hpass : passFrame f (receiveFrame f s) =
      detectFrame img ((breatheFrame img f (s.resolved img f)).sight (receiveFrame f s).breath.baseline.isSome img f)
        (breatheFrame img f (s.resolved img f)) := by
    unfold passFrame
    rw [himage]
    rfl
  have hwork := breatheFrame_leaves img f (s.resolved img f)
  have hbreath : (breatheFrame img f (s.resolved img f)).breath = s.heard img f := hwork.breath.trans resolved_heard
  have hdetectors : (breatheFrame img f (s.resolved img f)).detectors = s.detectors := by
    refine hwork.detectors.trans ((resolveFrame_leaves img f.keys _).detectors.trans ?_)
    rw [receiveFrame_frame]
  have hdetected : allDetectors.foldl (img.detectorFrame ((breatheFrame img f (s.resolved img f)).sight
      (receiveFrame f s).breath.baseline.isSome img f)) (breatheFrame img f (s.resolved img f)).detectors = s.detected img f := by
    rw [State.sight, hbreath, hdetectors, receiveFrame_breath]
    rfl
  rw [hexec, hburst, hpass, detectFrame, hdetected]

/-- A frame while no image is installed goes no further than the receiver (R1, R23, R37). -/
theorem exec_sensorFrame_unloaded (hr : s.Running) (hq : s.Quiet) (hf : readBurst burst = some f) (himg : s.image? = none) :
    exec (.sensorFrame burst) s = .next (receiveFrame f s) := by
  have hexec : exec (.sensorFrame burst) s = .next (takeBurst burst s) := exec_quiet rfl hr hq
  have himage : (receiveFrame f s).image? = none := by
    rw [receiveFrame_frame]
    exact himg
  rw [hexec, takeBurst, hf]
  dsimp only
  rw [passFrame, himage]

/-- What a frame moves: the receiver with its event, the resolver, the breath, the detectors, and by the work on voices, ranks and
records what that work moves. -/
theorem frame_leaves : VoiceWork
    { receiveFrame f s with
      resolver := (s.resolved img f).resolver
      breath := s.heard img f
      detectors := s.detected img f }
    { breatheFrame img f (s.resolved img f) with detectors := s.detected img f } := by
  have hresolve := resolveFrame_leaves img f.keys (receiveFrame f s)
  have hbreathe := breatheFrame_leaves img f (s.resolved img f)
  rw [resolved_heard] at hbreathe
  constructor
  case resolver => exact hbreathe.resolver
  case breath => exact hbreathe.breath
  case detectors => rfl
  case pending => exact hbreathe.pending.trans hresolve.pending
  case power => exact hbreathe.power.trans hresolve.power
  case image => exact hbreathe.image.trans hresolve.image
  case startUpDone => exact hbreathe.startUpDone.trans hresolve.startUpDone
  case sensor => exact hbreathe.sensor.trans hresolve.sensor
  case selector => exact hbreathe.selector.trans hresolve.selector
  case pitch => exact hbreathe.pitch.trans hresolve.pitch
  case master => exact hbreathe.master.trans hresolve.master
  case liveRanks => exact hbreathe.liveRanks.trans hresolve.liveRanks
  case key => exact hbreathe.key.trans hresolve.key
  case scale => exact hbreathe.scale.trans hresolve.scale
  case map => exact hbreathe.map.trans hresolve.map
  case lineState => exact hbreathe.lineState.trans hresolve.lineState
  case joiningTimer => exact hbreathe.joiningTimer.trans hresolve.joiningTimer
  case errorCounter => exact hbreathe.errorCounter.trans hresolve.errorCounter
  case decayTimer => exact hbreathe.decayTimer.trans hresolve.decayTimer
  case underWay => exact hbreathe.underWay.trans hresolve.underWay
  case readingAbandoned => exact hbreathe.readingAbandoned.trans hresolve.readingAbandoned
  case badFrames => exact hbreathe.badFrames.trans hresolve.badFrames
  case recordsDropped => exact hbreathe.recordsDropped.trans hresolve.recordsDropped
  case audio => exact hbreathe.audio.trans hresolve.audio
  case panel => exact hbreathe.panel.trans hresolve.panel

end

/-- Settles O10: the receiver, then work that leaves all but voices, ranks, records and the frame's own blocks. -/
theorem validFrameAtReceiver : Obligations.ValidFrameAtReceiver := by
  intro s burst f hr hq hf
  obtain ⟨t, hexec, hsensor, hpanel, hpower, himage, hmap, hpitch, haudio, hselector, hline, hunloaded⟩ : ∃ t,
      exec (.sensorFrame burst) s = .next t ∧ t.sensor = (receiveFrame f s).sensor ∧ t.panel = (receiveFrame f s).panel ∧
      t.power = s.power ∧ t.loader.image = s.loader.image ∧ t.map = s.map ∧ t.pitch = s.pitch ∧ t.audio = s.audio ∧
      t.banks.selector = s.banks.selector ∧ t.line.state = s.line.state ∧ (s.image? = none → t = receiveFrame f s) := by
    obtain ⟨hpower, himage, hmap, hpitch, haudio, hselector, hline⟩ := receiveFrame_leaves f s
    cases himg : s.loader.image with
    | loaded img =>
      have hwork := frame_leaves (s := s) (img := img) (f := f)
      exact ⟨_, exec_sensorFrame hr hq hf himg, hwork.sensor, hwork.panel, hwork.power.trans hpower,
        hwork.image.trans (himage.trans himg), hwork.map.trans hmap, hwork.pitch.trans hpitch, hwork.audio.trans haudio,
        hwork.selector.trans hselector, hwork.lineState.trans hline,
        fun hnone => nomatch (image?_of_loaded himg).symm.trans hnone⟩
    | _ =>
      exact ⟨_, exec_sensorFrame_unloaded hr hq hf (by simp only [State.image?, himg]), rfl, rfl, hpower, himage.trans himg, hmap,
        hpitch, haudio, hselector, hline, fun _ => rfl⟩
  have hevents : (receiveFrame f s).panel = { s.panel with events := { s.panel.events with
      sensorBack := (receiveFrame f s).panel.events.sensorBack } } := congrArg State.panel (receiveFrame_frame f s)
  refine ⟨t, hexec, ?_⟩
  rw [hsensor, hpanel]
  refine ⟨?_, ?_, ?_, fun hfirst => ?_, fun g hg hseq => ?_, receiveFrame_of_lost, receiveFrame_of_not_lost, hevents, hpower, himage,
    hmap, hpitch, haudio, hselector, hline, fun hnone => ?_⟩
  · rw [receiveFrame_sensor]
  · rw [receiveFrame_sensor]
  · rw [receiveFrame_sensor]
  · rw [receiveFrame_sensor, hfirst]
    rfl
  · rw [receiveFrame_sensor, hg, skipped_eq hseq]
    rfl
  · rw [hunloaded hnone, receiveFrame_frame]

end Sys2Proof.Machine

/-!
What a frame gives the Note Resolver and the Breath Shaper (R2 to R8, R12, R13, R23 to R35, R56, R59, R100, R116). O11, O13 and O14.
-/

namespace Sys2Proof.Machine

section
variable {s : State} {img : Image} {f : SensorFrame} {z : Nat}

/-! ### The resolver's take -/

theorem receiveFrame_settleFrames : (receiveFrame f s).settleFrames = s.settleFrames := by
  rw [receiveFrame_frame]
  rfl

theorem receiveFrame_resolver : (receiveFrame f s).resolver = s.resolver := by
  rw [receiveFrame_frame]

theorem receiveFrame_leadTag : (receiveFrame f s).leadTag = s.leadTag := by
  rw [receiveFrame_frame]
  rfl

/-- The note of a frame's take, as the lead (R12). -/
theorem resolved_legatoTo {n : Int} {u : Fin 8} {v : Voice} (ha : s.breath.articulation = .sounding) (hu : s.leadTag = some u)
    (hv : s.voice u = some v) (hc : img.candidate (img.maskedKeys f.keys) = .note n) (hn : n ≠ s.resolver.taken)
    (hstable : s.settleFrames ≤ (s.resolver.frame img f.keys).stability)
    (hlead : fold (n + 12 * s.resolver.octaveShift + s.resolver.transpose) ≠ s.resolver.leadNote) :
    (s.resolved img f).resolver.leadNote = fold (n + 12 * s.resolver.octaveShift + s.resolver.transpose) ∧
    ∃ s', State.LegatoTo { s with
        sensor := (receiveFrame f s).sensor
        resolver := (s.resolved img f).resolver
        panel := (receiveFrame f s).panel } s' u v (fold (n + 12 * s.resolver.octaveShift + s.resolver.transpose)) ∧
      s.resolved img f = s'.planned := by
  have htake : s.resolved img f =
      recomputeLead { receiveFrame f s with resolver := { s.resolver.frame img f.keys with taken := n } } := by
    obtain ⟨m, hm, -, -, h⟩ | ⟨hkept, -⟩ := resolveFrame_cases img f.keys (receiveFrame f s)
    · obtain rfl := Candidate.note.inj (hc.symm.trans hm)
      rw [receiveFrame_resolver] at h
      exact h
    · rw [receiveFrame_settleFrames, receiveFrame_resolver] at hkept
      obtain h | h | h := hkept
      · cases hc.symm.trans h
      · exact absurd hstable (Nat.not_le_of_lt h)
      · exact absurd (Candidate.note.inj (hc.symm.trans h)) hn
  obtain ⟨s', hlegato, hplanned⟩ := recomputeLead_legatoTo
    (s := { receiveFrame f s with resolver := { s.resolver.frame img f.keys with taken := n } }) (u := u) (v := v)
    (by rw [receiveFrame_frame]; exact ha) (by rw [receiveFrame_frame]; exact hu) (by rw [receiveFrame_frame]; exact hv) hlead
  rw [htake, recomputeLead_resolver]
  refine ⟨rfl, s', ?_, hplanned⟩
  rw [receiveFrame_frame] at hlegato ⊢
  exact hlegato

/-! ### The breath of a frame -/

/-- During a capture a frame is counted and added, and nothing else (R24). -/
theorem heard_of_capture {gain dead onset : Nat} {b : Breath} (hb : b.baseline = none) (hcount : b.captureCount < 16) :
    b.heard img f gain dead onset = { b with captureCount := b.captureCount + 1, captureSum := b.captureSum + f.breath } := by
  unfold Breath.heard
  rw [hb]
  exact if_pos hcount

/-- The articulation a frame leads to keeps the quantities of the frame (R26, R28, R29, R35). -/
theorem heard_measured {gain dead onset : Nat} {b : Breath} (hb : b.baseline = some z) :
    let h := b.heard img f gain dead onset
    let m := b.measure img z f.breath f.lip gain dead
    h.net = m.net ∧ h.rise = m.rise ∧ h.previousNet = m.previousNet ∧ h.level = m.level ∧ h.levelClass = m.levelClass ∧
      h.bend = m.bend ∧ h.baseline = some z ∧ h.captureCount = b.captureCount ∧ h.captureSum = b.captureSum := by
  have hbase : (b.measure img z f.breath f.lip gain dead).baseline = some z := hb
  unfold Breath.heard
  rw [hb]
  cases b.articulation with
  | silent =>
    dsimp only [Breath.fromSilent]
    split
    · exact ⟨rfl, rfl, rfl, rfl, rfl, rfl, hbase, rfl, rfl⟩
    · exact ⟨rfl, rfl, rfl, rfl, rfl, rfl, hbase, rfl, rfl⟩
  | onset =>
    dsimp only [Breath.fromOnset]
    split
    · exact ⟨rfl, rfl, rfl, rfl, rfl, rfl, hbase, rfl, rfl⟩
    · exact ⟨rfl, rfl, rfl, rfl, rfl, rfl, hbase, rfl, rfl⟩
  | sounding =>
    dsimp only
    split
    · exact ⟨rfl, rfl, rfl, rfl, rfl, rfl, hbase, rfl, rfl⟩
    · exact ⟨rfl, rfl, rfl, rfl, rfl, rfl, hbase, rfl, rfl⟩

/-- Under a sounding note a frame keeps it or ends it (R33). -/
theorem heard_articulation_of_sounding {gain dead onset : Nat} {b : Breath} (ha : b.articulation = .sounding) :
    (∀ x, b.baseline = some x → min 4095 (f.breath - x) < img.tOff →
      (b.heard img f gain dead onset).articulation = .silent) ∧
    ((∀ x, b.baseline = some x → img.tOff ≤ min 4095 (f.breath - x)) →
      (b.heard img f gain dead onset).articulation = .sounding) := by
  unfold Breath.heard
  cases hbase : b.baseline with
  | none =>
    refine ⟨nofun, fun _ => ?_⟩
    dsimp only
    split
    · exact ha
    · exact ha
  | some x =>
    rw [ha]
    refine ⟨fun y hy hlow => ?_, fun hloud => ?_⟩
    · obtain rfl := Option.some.inj hy
      dsimp only
      rw [if_pos hlow]
    · dsimp only
      rw [if_neg (Nat.not_lt_of_le (hloud x rfl))]
      exact ha

/-- The level on the curve is the interpolation itself, which never goes below zero (R28). -/
theorem curveLevel_eq (curve : List Nat) (n : Nat) :
    (curveLevel curve n : Int) = (curve.getD (n / 128) 0 : Int) +
      Int.tdiv (((curve.getD (n / 128 + 1) 0 : Int) - curve.getD (n / 128) 0) * ((n % 128 : Nat) : Int)) 128 := by
  refine Int.toNat_of_nonneg ?_
  generalize hc0 : curve.getD (n / 128) 0 = c0
  generalize hc1 : curve.getD (n / 128 + 1) 0 = c1
  obtain ⟨k, hk, hlt⟩ : ∃ k, n % 128 = k ∧ k < 128 := ⟨_, rfl, Nat.mod_lt n (by decide)⟩
  rw [hk]
  obtain hup | hdown := le_or_gt 0 (((c1 : Int) - c0) * (k : Int))
  · have := Int.tdiv_nonneg hup (by decide : (0 : Int) ≤ 128)
    omega
  · have hbound : -(((c1 : Int) - c0) * (k : Int)) ≤ 128 * (c0 : Int) := by nlinarith
    have hneg := Int.neg_tdiv (((c1 : Int) - c0) * (k : Int)) 128
    rw [Int.tdiv_eq_ediv_of_nonneg (by omega)] at hneg
    omega

/-- The bend has the sign of the lip's distance from the centre (R35). -/
theorem bendOf_eq (lip centre gain dead : Nat) :
    bendOf lip centre gain dead =
      if ((lip : Int) - centre).natAbs ≤ dead then 0
      else max (-2000) (min 2000 (((lip : Int) - centre).sign *
        (((((lip : Int) - centre).natAbs - dead) * gain / 64 : Nat) : Int))) := by
  unfold bendOf
  dsimp only
  split
  · rfl
  · next hfar =>
    rw [clampInt_eq]
    split
    · next hneg => rw [Int.sign_eq_neg_one_of_neg hneg, neg_one_mul]
    · next hpos => rw [Int.sign_eq_one_of_pos (by omega), one_mul]

end

/-- A release after a frame's breath, under the frame's detectors (R33, R59). -/
theorem released_with {b : Breath} {ds : Four Detector} {p q : State} (h : State.ReleasedTo { p with breath := b } q ∧
    q = { { p with breath := b } with slots := q.slots, harmony := q.harmony, line := q.line }) :
    p.ReleasedTo { q with detectors := ds } ∧
      { q with detectors := ds } = { p with slots := q.slots, harmony := q.harmony, line := q.line, breath := b, detectors := ds } := by
  obtain ⟨hreleased, hframe⟩ := h
  exact ⟨hreleased, congrArg (fun x : State => { x with detectors := ds }) hframe⟩

/-! ### The obligations -/

/-- Settles O11: the resolver's part of a frame, then the breath's. -/
theorem resolverTakesFrame : Obligations.ResolverTakesFrame := by
  refine ⟨fun s burst f img hr hq hf himg => ?_, fun s burst f img n u v hr hq hf himg ha hu hv hc hn hstable => ?_⟩
  · have hwork := frame_leaves (s := s) (img := img) (f := f)
    obtain ⟨hkeys, hprevious, hstability, hunresolved, htake, hkeep, hshift, htranspose⟩ :=
      resolveFrame_resolver (t := s.resolved img f) (rfl : s.resolved img f = resolveFrame img f.keys (receiveFrame f s))
    rw [receiveFrame_settleFrames, receiveFrame_resolver] at *
    refine ⟨_, exec_sensorFrame hr hq hf himg, ?_⟩
    rw [hwork.resolver]
    refine ⟨hkeys, hprevious, hstability, hunresolved, htake, hkeep, hshift, htranspose, fun hmoves hloud => ?_⟩
    have hresolved : s.resolved img f = { receiveFrame f s with resolver := (s.resolved img f).resolver } :=
      resolveFrame_of_not_delivered (by
        rw [receiveFrame_resolver, receiveFrame_breath, receiveFrame_leadTag]
        exact hmoves)
    have hends : ¬ (s.resolved img f).breath.Ends img f := by
      rw [resolved_breath]
      exact fun ⟨ha, z, hz, hlow⟩ => Nat.not_lt_of_le (hloud ha z hz) hlow
    rw [breatheFrame_of_not_ends hends, hresolved, receiveFrame_frame]
  · dsimp only
    intro hlead
    have hstability : s.settleFrames ≤ (s.resolver.frame img f.keys).stability := by
      rw [← hc] at hstable
      exact hstable
    obtain ⟨hnote, s', hlegato, hplanned⟩ := resolved_legatoTo (f := f) ha hu hv hc hn hstability hlead
    have hwork := frame_leaves (s := s) (img := img) (f := f)
    have hbreath : (s.resolved img f).breath = s.breath := resolved_breath
    obtain ⟨hsilent, hsounding⟩ := heard_articulation_of_sounding (f := f) (img := img) (gain := s.bendParameters.1)
      (dead := s.bendParameters.2) (onset := s.onsetFrames) ha
    refine ⟨_, s', exec_sensorFrame hr hq hf himg, ?_⟩
    rw [hwork.resolver, hwork.sensor, hwork.panel, hwork.breath]
    refine ⟨hnote, hlegato, fun hloud => ⟨hsounding hloud, ?_⟩, fun z hz hlow => ⟨hsilent z hz hlow, ?_⟩⟩
    · have hends : ¬ (s.resolved img f).breath.Ends img f := by
        rw [hbreath]
        exact fun ⟨_, z, hz, hlow⟩ => Nat.not_lt_of_le (hloud z hz) hlow
      rw [breatheFrame_of_not_ends hends, resolved_heard, hplanned]
    · have hends : (s.resolved img f).breath.Ends img f := by
        rw [hbreath]
        exact ⟨ha, z, hz, hlow⟩
      rw [breatheFrame_of_ends hends, resolved_heard, hplanned]
      exact released_with (releaseAll_releasedTo { s'.planned with breath := s.heard img f })

theorem captureComplete_of_sixteen {s : State} (hbase : s.breath.baseline = none) (hcount : s.breath.captureCount = 16) :
    let b : Breath := { s.breath with baseline := some (min 1023 (s.breath.captureSum / 16)), previousNet := 0 }
    captureComplete s = if 1023 < s.breath.captureSum / 16 then raise .baselineHigh { s with breath := b } else { s with breath := b } := by
  unfold captureComplete
  rw [hbase]
  have hfull : Config.captureFrames ≤ s.breath.captureCount := by
    rw [hcount]
    exact Nat.le_refl 16
  dsimp only
  rw [if_pos hfull]
  rfl

/-- Settles O13: the quantities of a frame are those of its measure, whatever the articulation does with them. -/
theorem breathOfFrameAndBaseline : Obligations.BreathOfFrameAndBaseline := by
  refine ⟨fun s burst f img hr hq hf himg => ?_, fun s hr hbase hcount => ?_⟩
  · have hwork := frame_leaves (s := s) (img := img) (f := f)
    refine ⟨_, exec_sensorFrame hr hq hf himg, ?_⟩
    rw [hwork.breath]
    refine ⟨fun hbase => heard_of_capture hbase (hq.1.1 hbase), fun z hbase => ?_⟩
    obtain ⟨hnet, hrise, hprevious, hlevel, hclass, hbend, hz, hcount, hsum⟩ := heard_measured (img := img) (f := f)
      (gain := s.bendParameters.1) (dead := s.bendParameters.2) (onset := s.onsetFrames) hbase
    refine ⟨hnet, hrise, hprevious.trans hnet.symm, ?_, hclass.trans (congrArg levelClassOf hlevel.symm), hbend.trans ?_,
      hz.trans hbase.symm, hcount, hsum⟩
    · dsimp only
      rw [State.heard, hlevel, hnet]
      exact curveLevel_eq img.curve _
    · show bendOf f.lip img.lipCentre s.bendParameters.1 s.bendParameters.2 = _
      unfold State.bendParameters
      cases s.currentProgram with
      | none => exact bendOf_eq _ _ _ _
      | some p => exact bendOf_eq _ _ _ _
  · have hexec : exec .baselineCaptureComplete s = .next (captureComplete s) := exec_inside rfl hr rfl rfl
    rw [captureComplete_of_sixteen hbase hcount] at hexec
    refine ⟨_, hexec, ?_⟩
    split
    · exact ⟨rfl, rfl, rfl⟩
    · exact ⟨rfl, rfl, rfl⟩

/-! ### The articulation -/

section
variable {s : State} {img : Image} {f : SensorFrame} {z : Nat}

/-- A frame under no sounding note moves no voice and no record. -/
theorem resolved_of_not_sounding (ha : s.breath.articulation ≠ .sounding) :
    breatheFrame img f (s.resolved img f) =
      { receiveFrame f s with resolver := (s.resolved img f).resolver, breath := s.heard img f } := by
  have hends : ¬ (s.resolved img f).breath.Ends img f := by
    rw [resolved_breath]
    exact fun ⟨h, _⟩ => ha h
  have hresolved : s.resolved img f = { receiveFrame f s with resolver := (s.resolved img f).resolver } :=
    resolveFrame_of_not_delivered (.inr (.inl (by rwa [receiveFrame_breath])))
  rw [breatheFrame_of_not_ends hends, resolved_heard, hresolved]

theorem still_of_not_sounding (ha : s.breath.articulation ≠ .sounding) :
    (breatheFrame img f (s.resolved img f)).slots = s.slots ∧ (breatheFrame img f (s.resolved img f)).line = s.line := by
  rw [resolved_of_not_sounding ha, receiveFrame_frame]
  exact ⟨rfl, rfl⟩

/-- A frame that ends the note releases what its take left (R33, R59). -/
theorem ended_releasedTo (h : s.breath.Ends img f) : ∃ q, breatheFrame img f (s.resolved img f) = q ∧
    State.ReleasedTo { s.resolved img f with breath := s.heard img f } q ∧
    q = { { s.resolved img f with breath := s.heard img f } with slots := q.slots, harmony := q.harmony, line := q.line } := by
  have hends : (s.resolved img f).breath.Ends img f := by
    rwa [resolved_breath]
  refine ⟨_, breatheFrame_of_ends hends, ?_⟩
  rw [resolved_heard]
  exact releaseAll_releasedTo _

/-- The articulation of a frame evaluated in SILENT (R30, R32). -/
theorem heard_of_silent {gain dead onset : Nat} {b : Breath} (hb : b.baseline = some z) (ha : b.articulation = .silent) :
    let h := b.heard img f gain dead onset
    if img.tOn ≤ min 4095 (f.breath - z) then
      h.articulation = .onset ∧ h.onsetCounter = 0 ∧ h.onsetPeak = h.level ∧ h.onsetEnding = decide (onset = 0)
    else h.articulation = .silent := by
  unfold Breath.heard
  rw [hb, ha]
  dsimp only [Breath.fromSilent, Breath.measure]
  split
  · exact ⟨rfl, rfl, rfl, rfl⟩
  · exact ha

/-- The articulation of a frame evaluated in ONSET (R31). -/
theorem heard_of_onset {gain dead onset : Nat} {b : Breath} (hb : b.baseline = some z) (ha : b.articulation = .onset) :
    let h := b.heard img f gain dead onset
    if min 4095 (f.breath - z) < img.tOff then h.articulation = .silent ∧ h.onsetEnding = false
    else
      h.articulation = .onset ∧ h.onsetCounter = b.onsetCounter + 1 ∧ h.onsetPeak = max b.onsetPeak h.level ∧
        h.onsetEnding = decide (onset ≤ b.onsetCounter + 1) := by
  unfold Breath.heard
  rw [hb, ha]
  dsimp only [Breath.fromOnset, Breath.measure]
  split
  · exact ⟨rfl, rfl⟩
  · exact ⟨ha, rfl, rfl, rfl⟩

end

/-- Settles O14: SILENT and ONSET move the breath alone; a sounding note stays, or its end is the release of every voice. -/
theorem articulationOfFrame : Obligations.ArticulationOfFrame := by
  intro s burst f img z hr hq hf himg hbase
  have hwork := frame_leaves (s := s) (img := img) (f := f)
  refine ⟨_, exec_sensorFrame hr hq hf himg, ?_⟩
  rw [hwork.breath, hwork.resolver, hwork.sensor, hwork.panel]
  cases ha : s.breath.articulation with
  | silent =>
    obtain ⟨hslots, hline⟩ := still_of_not_sounding (s := s) (img := img) (f := f) (by rw [ha]; nofun)
    have hheard := heard_of_silent (f := f) (img := img) (gain := s.bendParameters.1) (dead := s.bendParameters.2)
      (onset := s.onsetFrames) hbase ha
    dsimp only
    by_cases hn : img.tOn ≤ min 4095 (f.breath - z)
    · rw [if_pos hn]
      obtain ⟨hart, hcounter, hpeak, hending⟩ := (if_pos hn).mp hheard
      exact ⟨hart, hcounter, hpeak, hending, hslots, hline⟩
    · rw [if_neg hn]
      exact ⟨(if_neg hn).mp hheard, hslots, hline⟩
  | onset =>
    obtain ⟨hslots, hline⟩ := still_of_not_sounding (s := s) (img := img) (f := f) (by rw [ha]; nofun)
    have hheard := heard_of_onset (f := f) (img := img) (gain := s.bendParameters.1) (dead := s.bendParameters.2)
      (onset := s.onsetFrames) hbase ha
    dsimp only
    by_cases hn : min 4095 (f.breath - z) < img.tOff
    · rw [if_pos hn]
      obtain ⟨hart, hending⟩ := (if_pos hn).mp hheard
      exact ⟨hart, hending, hslots, hline⟩
    · rw [if_neg hn]
      obtain ⟨hart, hcounter, hpeak, hending⟩ := (if_neg hn).mp hheard
      exact ⟨hart, hcounter, hpeak, hending, hslots, hline⟩
  | sounding =>
    obtain ⟨hsilent, hsounding⟩ := heard_articulation_of_sounding (f := f) (img := img) (gain := s.bendParameters.1)
      (dead := s.bendParameters.2) (onset := s.onsetFrames) ha
    dsimp only
    by_cases hn : min 4095 (f.breath - z) < img.tOff
    · rw [if_pos hn]
      obtain ⟨q, hframe, hrelease⟩ := ended_releasedTo (s := s) (img := img) (f := f) ⟨ha, z, hbase, hn⟩
      rw [hframe]
      refine ⟨hsilent z hbase hn, fun u v hv => releasing_of_releasedTo hrelease.1 hv, fun r => ?_, fun hkeeps => ?_⟩
      · obtain ⟨hstage, hclaim, hslot, hposition, hrefused⟩ := hrelease.1.2.1 r
        exact ⟨hstage, hclaim, hrefused, hposition, hslot⟩
      · have hresolved : s.resolved img f = { receiveFrame f s with resolver := (s.resolved img f).resolver } :=
          resolveFrame_of_not_delivered (by
            rw [receiveFrame_resolver, receiveFrame_leadTag]
            exact hkeeps.imp_right .inr)
        rw [hresolved, receiveFrame_frame] at hrelease
        rw [receiveFrame_frame]
        exact released_with hrelease
    · rw [if_neg hn]
      refine hsounding fun x hx => ?_
      obtain rfl := Option.some.inj (hbase.symm.trans hx)
      exact Nat.le_of_not_lt hn

end Sys2Proof.Machine

/-!
The gesture detectors on a frame (R37 to R43). O15.
-/

namespace Sys2Proof.Machine

/-- One detector after a frame: one that does not act is left as it is (R38, R42, R43). -/
def Image.detectorAfter (img : Image) (v : Sight) (d : Fin 4) (k : Detector) : Detector :=
  match img.acting d with
  | some df => k.frame (img.actingCondition d v) df.count
  | none => k

theorem get_detectorFrame (img : Image) (v : Sight) (ks : Four Detector) (d e : Fin 4) :
    (img.detectorFrame v ks d).get e = if e = d then img.detectorAfter v d (ks.get d) else ks.get e := by
  unfold Image.detectorFrame Image.detectorAfter
  cases img.acting d with
  | none =>
    dsimp only
    split
    · next h => rw [h]
    · rfl
  | some df => exact Four.get_set ks d e _

/-- Each detector is evaluated once, on what it was before the frame (R44). -/
theorem get_foldl_detectorFrame (img : Image) (v : Sight) (e : Fin 4) : ∀ (l : List (Fin 4)) (ks : Four Detector), l.Nodup →
    (l.foldl (img.detectorFrame v) ks).get e = if e ∈ l then img.detectorAfter v e (ks.get e) else ks.get e := by
  intro l
  induction l with
  | nil => exact fun ks _ => rfl
  | cons d l ih =>
    intro ks hl
    obtain ⟨hd, hl⟩ := List.nodup_cons.1 hl
    rw [List.foldl_cons, ih _ hl, get_detectorFrame]
    by_cases he : e = d
    · subst he
      rw [if_neg hd, if_pos rfl, if_pos List.mem_cons_self]
    · simp only [List.mem_cons, he, if_false, false_or]

theorem get_detected {s : State} {img : Image} {f : SensorFrame} (e : Fin 4) : (s.detected img f).get e = img.detectorAfter
    { net := if s.breath.baseline.isSome then (s.heard img f).net else 0
      rise := if s.breath.baseline.isSome then (s.heard img f).rise else 0
      lip := f.lip
      keys := img.maskedKeys f.keys } e (s.detectors.get e) := by
  have hall : e ∈ allDetectors := by
    revert e
    decide
  rw [State.detected, get_foldl_detectorFrame _ _ _ _ _ (by decide), if_pos hall]

/-- The outcomes of a frame for a detector that acts (R43). -/
theorem detector_frame_spec (k : Detector) (cond : Bool) (n : Nat) :
    (cond = false → k.frame cond n = { hits := 0, armed := true }) ∧
    (cond = true → k.armed = false → k.frame cond n = k) ∧
    (cond = true → k.armed = true → k.frame cond n = { hits := min n (k.hits + 1), armed := true }) := by
  obtain ⟨hits, armed⟩ := k
  cases cond <;> cases armed <;> simp [Detector.frame]

/-- A detector that does not act: unused, or the upper member of a joined pair (R38, R42). -/
theorem detectorAfter_of_idle {img : Image} {v : Sight} {d : Fin 4} {k : Detector}
    (h : img.detectorDefs.get d = none ∨ (img.joinOfPair d ≠ .separate ∧ ¬ (d = 0 ∨ d = 2))) : img.detectorAfter v d k = k := by
  have hnone : img.acting d = none := by
    unfold Image.acting
    obtain hunused | ⟨hjoin, hupper⟩ := h
    · split
      · exact hunused
      · split
        · exact hunused
        · rfl
    · have hlower : lowerMember d = false := decide_eq_false hupper
      cases hj : img.joinOfPair d with
      | separate => exact absurd hj hjoin
      | both => simp [hlower]
      | either => simp [hlower]
  unfold Image.detectorAfter
  rw [hnone]

/-- A detector that acts takes the frame by its definition (R41, R42). -/
theorem detectorAfter_of_acting {img : Image} {v : Sight} {d : Fin 4} {df : DetectorDef} {k : Detector}
    (hd : img.detectorDefs.get d = some df) (h : img.joinOfPair d = .separate ∨ d = 0 ∨ d = 2) :
    img.detectorAfter v d k = k.frame (img.actingCondition d v) df.count := by
  have hacting : img.acting d = some df := by
    unfold Image.acting
    cases hj : img.joinOfPair d with
    | separate => exact hd
    | _ =>
      have hlower : lowerMember d = true := decide_eq_true (h.resolve_left (by rw [hj]; nofun))
      simp [hlower, hd]
  unfold Image.detectorAfter
  rw [hacting]

/-- Settles O15: every detector is evaluated once, on its condition with its pair's join. -/
theorem detectorsCountFrame : Obligations.DetectorsCountFrame := by
  intro s burst f img hr hq hf himg
  have hwork := frame_leaves (s := s) (img := img) (f := f)
  refine ⟨_, exec_sensorFrame hr hq hf himg, ?_⟩
  rw [hwork.breath]
  intro net rise cond d join lower upper
  let v : Sight :=
    { net := if s.breath.baseline.isSome then (s.heard img f).net else 0
      rise := if s.breath.baseline.isSome then (s.heard img f).rise else 0
      lip := f.lip
      keys := img.maskedKeys f.keys }
  have hnet : (v.net : Int) = net := Nat.cast_ite _ _ _
  have hcond : ∀ e, conditionOf (img.detectorDefs.get e) v = cond e := by
    intro e
    show _ = match img.detectorDefs.get e with | none => false | some df => _
    cases img.detectorDefs.get e with
    | none => rfl
    | some df =>
      show (df.watch.raw v != df.negate) = _
      rw [Bool.bne_eq_xor, Bool.xor_comm]
      refine congrArg (xor df.negate) ?_
      cases df.watch with
      | breath low high =>
        show (decide (low ≤ (v.net : Int)) && decide ((v.net : Int) ≤ high)) = decide (low ≤ net ∧ net ≤ high)
        rw [hnet, Bool.decide_and]
      | rise low high => exact (Bool.decide_and _ _).symm
      | lip low high => exact (Bool.decide_and _ _).symm
      | keys care pattern => rfl
  have hafter : (s.detected img f).get d = img.detectorAfter v d (s.detectors.get d) := get_detected d
  refine ⟨fun hidle => hafter.trans (detectorAfter_of_idle hidle), fun df hdf hacts => ?_⟩
  intro on
  have hon : img.actingCondition d v = on := by
    unfold Image.actingCondition
    rw [hcond, hcond]
    rfl
  rw [hafter, detectorAfter_of_acting hdf hacts, hon]
  exact detector_frame_spec _ _ _

end Sys2Proof.Machine

/-!
The gains of an audio block boundary (R58, R63 to R65, R71). O20.
-/

namespace Sys2Proof.Machine

/-! ### A PENDING bank that lost its last reference -/

theorem loadUnreferenced_of_not_pending {b : BankId} {s : State} (h : ∀ n k, s.bank b ≠ .pending n k) : loadUnreferenced b s = s := by
  unfold loadUnreferenced
  cases hb : s.bank b with
  | pending n k => exact absurd hb (h n k)
  | _ => rfl

theorem loadUnreferenced_of_pending {b : BankId} {s : State} {n : Nat} {k : Option Held} (h : s.bank b = .pending n k)
    (hr : s.referenced b = false) : (loadUnreferenced b s).bank b = .loading n ∧
    (loadUnreferenced b s).loader.reading = some (.programRead b n) := by
  have hload : loadUnreferenced b s =
      { setBank b (.loading n) s with loader := { s.loader with reading := some (.programRead b n) } } := by
    unfold loadUnreferenced
    rw [h]
    dsimp only
    rw [if_neg (by rw [hr]; nofun), setBank_loader]
  rw [hload]
  exact ⟨(bank_setBank s b b _).trans (if_pos rfl), rfl⟩

theorem bank_loadUnreferenced_other {b c : BankId} (s : State) (h : c ≠ b) : (loadUnreferenced b s).bank c = s.bank c := by
  rw [loadUnreferenced_bank, if_neg fun hb => h hb.1]

/-- The two banks are looked at apart: what the other bank holds does not change what becomes of one (R71). -/
theorem loadPending_of_other {b : BankId} {s : State} (h : ∀ n k, s.bank b.other ≠ .pending n k) :
    loadPending s = loadUnreferenced b s := by
  cases b with
  | bankA =>
    refine loadUnreferenced_of_not_pending fun n k => ?_
    rw [bank_loadUnreferenced_other s (by decide)]
    exact h n k
  | bankB => exact congrArg (loadUnreferenced .bankB) (loadUnreferenced_of_not_pending h)

theorem loadPending_of_none {s : State} (h : ∀ b n k, s.bank b ≠ .pending n k) : loadPending s = s :=
  (loadPending_of_other (b := .bankA) (h _)).trans (loadUnreferenced_of_not_pending (h _))

theorem loadPending_bank (c : BankId) (s : State) : (loadPending s).bank c = (loadUnreferenced c s).bank c := by
  cases c with
  | bankA => exact bank_loadUnreferenced_other _ (by decide)
  | bankB => rw [loadPending, loadUnreferenced_bank .bankB .bankB, loadUnreferenced_bank .bankB .bankB s,
      loadUnreferenced_referenced, bank_loadUnreferenced_other (b := .bankA) s (by decide)]

/-! ### The gain of one slot -/

section
variable {s : State} {x : Slot} {v : Voice}

theorem gainStep_of_free (h : x.voice = none) : s.gainStep x = x := by
  unfold State.gainStep
  rw [h]

theorem gainStep_announced (s : State) (x : Slot) : (s.gainStep x).announced = x.announced ∧ (s.gainStep x).phase = x.phase := by
  unfold State.gainStep Slot.free
  split
  · exact ⟨rfl, rfl⟩
  · dsimp only
    split
    · split <;> exact ⟨rfl, rfl⟩
    · split <;> exact ⟨rfl, rfl⟩
    · exact ⟨rfl, rfl⟩

/-- A RELEASING voice whose gain has come to 0 leaves its slot FREE (R65). -/
theorem gainStep_of_silent (hv : x.voice = some v) (hr : v.releasing = true) (hg : x.gainTarget = 0) : s.gainStep x = x.free := by
  unfold State.gainStep
  rw [hv]
  dsimp only
  unfold Voice.releasing at hr
  cases hs : v.state with
  | releasingNormal => exact if_pos hg
  | releasingWithdraw step => exact if_pos hg
  | _ =>
    rw [hs] at hr
    cases hr

/-- A voice released in NORMAL mode falls by the release rate (R64). -/
theorem gainStep_of_normal (hv : x.voice = some v) (hs : v.state = .releasingNormal) (hg : x.gainTarget ≠ 0) : s.gainStep x =
    { x with gainCurrent := x.gainTarget, gainTarget := x.gainTarget - (s.programOfBank v.bank).releaseRate } := by
  unfold State.gainStep
  rw [hv]
  dsimp only
  rw [hs]
  exact if_neg hg

/-- A voice released in WITHDRAW mode falls by its step, fixed at its first boundary (R58). -/
theorem gainStep_of_withdraw {step : Option Nat} (hv : x.voice = some v) (hs : v.state = .releasingWithdraw step)
    (hg : x.gainTarget ≠ 0) : s.gainStep x = { x with
      gainCurrent := x.gainTarget
      gainTarget := x.gainTarget - withdrawStep step x.gainTarget
      voice := some { v with state := .releasingWithdraw (some (withdrawStep step x.gainTarget)) } } := by
  unfold State.gainStep
  rw [hv]
  dsimp only
  rw [hs]
  exact if_neg hg

/-- A PROVISIONAL or SOUNDING voice moves toward its desired gain (R63, R64). -/
theorem gainStep_of_active (hv : x.voice = some v) (hr : v.releasing = false) : s.gainStep x = { x with
    gainCurrent := x.gainTarget
    gainTarget := limitedGain (s.desiredGain v) x.gainTarget (s.programOfBank v.bank).attack (s.programOfBank v.bank).releaseRate
    voice := some { v with openingGain := none } } := by
  unfold State.gainStep
  rw [hv]
  dsimp only
  unfold Voice.releasing at hr
  cases hs : v.state with
  | releasingNormal =>
    rw [hs] at hr
    cases hr
  | releasingWithdraw step =>
    rw [hs] at hr
    cases hr
  | _ => rfl

end

/-! ### The pitch evaluation, as one pass over the voices -/

/-- The state after the glide and the root stage (R77, R79 to R81). -/
def State.glided (s : State) : State :=
  { mapVoices s.glide s with pitch := s.pitch.rootStage (mapVoices s.glide s).candidateRoot }

/-- What the pitch evaluation makes of a voice (R75). -/
def State.sung (s : State) (v : Voice) : Voice := if s.glided.rootDue then s.glide v else s.glided.tune (s.glide v)

theorem Eight.map_map {α β γ : Type} (g : β → γ) (f : α → β) (x : Eight α) : (x.map f).map g = x.map fun a => g (f a) := rfl

theorem evaluatePitch_eq (s : State) : evaluatePitch s = { mapVoices s.sung s with pitch := s.glided.pitch } := by
  have heval : evaluatePitch s = if s.glided.rootDue then s.glided else tuneAll s.glided := rfl
  rw [heval]
  by_cases hdue : s.glided.rootDue = true
  · have hsung : s.sung = s.glide := funext fun v => if_pos hdue
    rw [if_pos hdue, hsung]
    rfl
  · have hsung : s.sung = fun v => s.glided.tune (s.glide v) := funext fun v => if_neg hdue
    have hmap : ∀ x : Slot, ({ x with voice := (x.voice.map s.glide).map s.glided.tune } : Slot) =
        { x with voice := x.voice.map fun v => s.glided.tune (s.glide v) } := fun x => by rw [Option.map_map]; rfl
    have hslots : (s.slots.map fun x => { x with voice := x.voice.map s.glide }).map
        (fun x => { x with voice := x.voice.map s.glided.tune }) =
        s.slots.map fun x => { x with voice := x.voice.map fun v => s.glided.tune (s.glide v) } :=
      congrArg (fun f => s.slots.map f) (funext hmap)
    rw [if_neg hdue, hsung]
    exact congrArg (fun xs => ({ s with slots := xs, pitch := s.glided.pitch } : State)) hslots

/-- The pitch evaluation moves no field of a voice but those of its pitch. -/
theorem sung_keeps (s : State) (v : Voice) : s.sung v = { v with
    baseCurrent := (s.sung v).baseCurrent, justTarget := (s.sung v).justTarget, justCurrent := (s.sung v).justCurrent,
    pitch := (s.sung v).pitch, increment := (s.sung v).increment } := by
  unfold State.sung
  split <;> rfl

/-! ### The boundary -/

section
variable {s : State}

theorem exec_boundary (hr : s.Running) (hq : s.Quiet) : exec .audioBlockBoundary s = .next (boundary s) := exec_quiet rfl hr hq

/-- A slot after a boundary: its gain step, and its voice through the pitch evaluation. -/
theorem boundary_slot (s : State) (u : Fin 8) : (boundary s).slot u =
    { s.gainStep (s.slot u) with voice := (s.gainStep (s.slot u)).voice.map (stepGains s).sung } := by
  have hgains : (stepGains s).slot u = s.gainStep (s.slot u) := by
    rw [stepGains, slot_congr (loadPending_slots _), slot_mapSlots]
  have hslot : (boundary s).slot u = (mapVoices (stepGains s).sung (stepGains s)).slot u := by
    rw [boundary, evaluatePitch_eq]
    rfl
  rw [hslot, slot_mapVoices, State.voice, hgains]

theorem boundary_voice (s : State) (u : Fin 8) : (boundary s).voice u = (s.gainStep (s.slot u)).voice.map (stepGains s).sung := by
  rw [State.voice, boundary_slot]

theorem boundary_banks (s : State) : (boundary s).banks = (stepGains s).banks := by
  rw [boundary, evaluatePitch_eq]
  rfl

theorem boundary_loader (s : State) : (boundary s).loader = (stepGains s).loader := by
  rw [boundary, evaluatePitch_eq]
  rfl

/-- A bank is referenced once the gains have moved exactly where a voice stays with it. -/
theorem referenced_gains {b : BankId} :
    (mapSlots s.gainStep s).referenced b = true ↔ ∃ u v, (boundary s).voice u = some v ∧ v.bank = b := by
  have hvoice : ∀ u, (boundary s).voice u = ((mapSlots s.gainStep s).voice u).map (stepGains s).sung := fun u => by
    rw [boundary_voice, State.voice, slot_mapSlots]
  have hbank : ∀ v, ((stepGains s).sung v).bank = v.bank := fun v => by rw [sung_keeps]
  constructor
  · intro h
    obtain ⟨u, v, hv, hb⟩ := voice_of_referenced h
    exact ⟨u, _, by rw [hvoice, hv]; rfl, (hbank v).trans hb⟩
  · rintro ⟨u, w, hw, rfl⟩
    rw [hvoice, Option.map_eq_some_iff] at hw
    obtain ⟨v, hv, rfl⟩ := hw
    rw [hbank]
    exact referenced_of_voice hv

end

/-- Settles O20: the banks by the references that are left, the gains slot by slot. -/
theorem boundaryMovesGains : Obligations.BoundaryMovesGains := by
  intro s hr hq
  have hbanks : ∀ b, (boundary s).bank b = (loadUnreferenced b (mapSlots s.gainStep s)).bank b := fun b =>
    (bank_congr (boundary_banks s) b).trans (loadPending_bank b _)
  have hwork := voiceWork_stepGains s
  refine ⟨_, exec_boundary hr hq, ?_, ?_, fun b hb => ?_, fun b n h hb ⟨u, v, hv, hvb⟩ => ?_, fun b n h hb hnone => ?_, fun hb => ?_,
    fun u => ?_⟩
  · rw [boundary_banks]
    exact hwork.selector
  · rw [boundary_loader]
    exact hwork.image
  · rw [hbanks, loadUnreferenced_of_not_pending (s := mapSlots s.gainStep s) hb]
    rfl
  · have href : (mapSlots s.gainStep s).referenced b = true := referenced_gains.2 ⟨u, v, hv, hvb⟩
    rw [hbanks, loadUnreferenced_bank, if_neg (by rw [href]; nofun)]
    rfl
  · have href : (mapSlots s.gainStep s).referenced b = false := by
      rw [← Bool.not_eq_true, referenced_gains]
      exact fun ⟨u, v, hv, hvb⟩ => hnone u v hv hvb
    obtain ⟨hloading, hreading⟩ := loadUnreferenced_of_pending (s := mapSlots s.gainStep s) hb href
    refine ⟨(hbanks b).trans hloading, fun hother => ?_⟩
    rw [boundary_loader, stepGains, loadPending_of_other (s := mapSlots s.gainStep s) hother]
    exact hreading
  · rw [boundary_loader, stepGains, loadPending_of_none (s := mapSlots s.gainStep s) hb]
    rfl
  · obtain ⟨hannounced, hphase⟩ := gainStep_announced s (s.slot u)
    rw [boundary_slot]
    refine ⟨hannounced, hphase, fun hv => ?_, fun v hv hrel hg => ?_, fun v hv hrel hg => ?_, fun v hv hrel => ?_⟩
    · rw [gainStep_of_free hv]
      simp only [hv, Option.map_none]
      rw [← hv]
    · rw [gainStep_of_silent hv hrel hg]
      exact ⟨rfl, rfl, rfl⟩
    · cases hs : v.state with
      | releasingNormal =>
        rw [gainStep_of_normal hv hs hg]
        refine ⟨(stepGains s).sung v, congrArg (Option.map _) hv, rfl, ?_, fun _ => ⟨?_, rfl⟩, nofun, nofun⟩
        · rw [sung_keeps]
          exact hrel
        · rw [sung_keeps]
          exact hs
      | releasingWithdraw step =>
        rw [gainStep_of_withdraw hv hs hg]
        refine ⟨_, rfl, rfl, ?_, nofun, fun hn => ?_, fun n hn => ?_⟩
        · rw [sung_keeps]
          rfl
        · obtain rfl : step = none := VoiceState.releasingWithdraw.inj hn
          refine ⟨rfl, ?_⟩
          rw [sung_keeps]
          rfl
        · obtain rfl : step = some n := VoiceState.releasingWithdraw.inj hn
          refine ⟨rfl, ?_⟩
          rw [sung_keeps]
          rfl
      | _ =>
        unfold Voice.releasing at hrel
        rw [hs] at hrel
        cases hrel
    · rw [gainStep_of_active hv hrel]
      refine ⟨(stepGains s).sung { v with openingGain := none }, rfl, ?_⟩
      rw [sung_keeps]
      refine ⟨rfl, rfl, rfl, rfl, rfl, rfl, ?_⟩
      intro p desired
      have hdesired : s.desiredGain v = desired := by
        have hshift : ∀ r, s.harmonyGain v r = s.breath.level * (p.rankPrograms.get r).level / 32768 := fun r =>
          Nat.shiftRight_eq_div_pow _ 15
        unfold State.desiredGain
        cases hrole : v.role with
        | lead => cases hgain : v.openingGain <;> simp only [desired, hrole, hgain]
        | harmony r =>
          simp only [desired, hrole, hshift]
          cases v.state <;> simp [p]
      rw [← hdesired]
      rfl

end Sys2Proof.Machine

/-!
The pitch evaluation of a boundary, the adoption of a settled root, and the ages and timers (R20, R75 to R92, R105, R107, R108, R122,
R137, R139, R149, R185). O21, O22 and O23.
-/

namespace Sys2Proof.Machine

/-! ### The lowest note -/

/-- The lowest number that satisfies `P`, or none where no number does. -/
def Lowest (P : Nat → Prop) : Option Nat → Prop
  | none => ∀ n, ¬ P n
  | some c => P c ∧ ∀ n, P n → c ≤ n

theorem Lowest.congr {P Q : Nat → Prop} {best : Option Nat} (h : Lowest P best) (hPQ : ∀ n, P n ↔ Q n) : Lowest Q best := by
  obtain rfl : P = Q := funext fun n => propext (hPQ n)
  exact h

theorem lowest_lower {P : Nat → Prop} {best : Option Nat} (h : Lowest P best) (n : Nat) :
    Lowest (fun m => P m ∨ n = m) (lower best n) := by
  cases best with
  | none =>
    refine ⟨.inr rfl, fun m hm => ?_⟩
    obtain hm | rfl := hm
    · exact absurd hm (h m)
    · exact Nat.le_refl _
  | some b =>
    obtain ⟨hb, hmin⟩ := h
    refine ⟨?_, fun m hm => ?_⟩
    · obtain hle | hle := Nat.le_total b n
      · rw [Nat.min_eq_left hle]
        exact .inl hb
      · rw [Nat.min_eq_right hle]
        exact .inr rfl
    · obtain hm | rfl := hm
      · exact Nat.le_trans (Nat.min_le_left _ _) (hmin m hm)
      · exact Nat.min_le_right _ _

/-- A search through a list that joins the notes of each member keeps the lowest. -/
theorem lowest_foldl {α : Type} {g : Option Nat → α → Option Nat} {Q : α → Nat → Prop}
    (hg : ∀ P best a, Lowest P best → Lowest (fun m => P m ∨ Q a m) (g best a)) :
    ∀ (l : List α) {P : Nat → Prop} {best : Option Nat}, Lowest P best → Lowest (fun m => P m ∨ ∃ a ∈ l, Q a m) (l.foldl g best)
  | [], _, _, h => h.congr fun n => by simp
  | a :: l, _, _, h => (lowest_foldl hg l (hg _ _ a h)).congr fun n => by simp [or_assoc]

/-- A note that can be the root (R79). -/
def State.RootNote (s : State) (n : Nat) : Prop :=
  (∃ e ∈ s.map.entries, 1 ≤ e.levelClass ∧ e.note = n) ∨ ∃ u v, s.voice u = some v ∧ v.state = .sounding ∧ v.note = n

/-- The candidate root is the lowest such note (R79). -/
theorem candidateRoot_lowest (s : State) : Lowest s.RootNote s.candidateRoot := by
  have hmap : Lowest (fun n => ∃ e ∈ s.map.entries, 1 ≤ e.levelClass ∧ e.note = n) s.mapRoot := by
    refine (lowest_foldl (Q := fun e n => 1 ≤ e.levelClass ∧ e.note = n) (fun P best e h => ?_) s.map.entries
      (P := fun _ => False) (best := none) nofun).congr fun n => by simp
    split
    · next hc => exact (lowest_lower h e.note).congr fun n => by simp [hc]
    · next hc => exact h.congr fun n => by simp [hc]
  refine (lowest_foldl (Q := fun u n => ∃ v, s.voice u = some v ∧ v.state = .sounding ∧ v.note = n) (fun P best u h => ?_)
    allEight hmap).congr fun n => ?_
  · cases hv : s.voice u with
    | none => exact h.congr fun n => by simp
    | some v =>
      dsimp only
      split
      · next hs => exact (lowest_lower h v.note).congr fun n => by simp [of_decide_eq_true hs]
      · next hs => exact h.congr fun n => by simpa using fun h => absurd (decide_eq_true h) hs
  · unfold State.RootNote
    simp [mem_allEight]

/-! ### The root stage -/

section
variable {s : State}

theorem stepGains_voice (s : State) (u : Fin 8) : (stepGains s).voice u = (s.gainStep (s.slot u)).voice := by
  rw [stepGains, voice_congr (loadPending_slots _), State.voice, slot_mapSlots]

/-- Gains and glide leave the notes that can be the root (R58, R65, R77). -/
theorem rootNote_glided (n : Nat) : (mapVoices (stepGains s).glide (stepGains s)).RootNote n ↔ s.RootNote n := by
  have hmap : (mapVoices (stepGains s).glide (stepGains s)).map = s.map := (voiceWork_stepGains s).map
  unfold State.RootNote
  rw [hmap]
  refine or_congr Iff.rfl (exists_congr fun u => ?_)
  rw [voice_mapVoices, stepGains_voice]
  constructor
  · rintro ⟨w, hw, hs, rfl⟩
    rw [Option.map_eq_some_iff] at hw
    obtain ⟨v, hv, rfl⟩ := hw
    obtain ⟨x, hx, o, ⟨rfl, -⟩ | ⟨-, m, rfl, hrel⟩⟩ := gainStep_voice hv
    · exact ⟨x, hx, hs, rfl⟩
    · have hsounding : ({ x with state := m } : Voice).state = .sounding := hs
      unfold Voice.releasing at hrel
      rw [hsounding] at hrel
      cases hrel
  · rintro ⟨v, hv, hs, rfl⟩
    have hrel : v.releasing = false := by
      unfold Voice.releasing
      rw [hs]
    exact ⟨(stepGains s).glide { v with openingGain := none }, by rw [gainStep_of_active hv hrel]; rfl, hs, rfl⟩

theorem boundary_pitch (s : State) : (boundary s).pitch =
    s.pitch.rootStage (mapVoices (stepGains s).glide (stepGains s)).candidateRoot := by
  have hpitch : (boundary s).pitch = (stepGains s).pitch.rootStage (mapVoices (stepGains s).glide (stepGains s)).candidateRoot := by
    rw [boundary, evaluatePitch_eq]
    rfl
  rw [hpitch, (voiceWork_stepGains s).pitch]

/-- The root stage without a candidate (R80). -/
theorem rootStage_none (p : Pitch) : p.rootStage none = { p with root := none, settleCount := 0, previousRoot := none } := rfl

/-- The root stage with a candidate (R80, R81). -/
theorem rootStage_some (p : Pitch) (c : Nat) :
    (p.rootStage (some c)).previousRoot = some c ∧ (p.rootStage (some c)).tuning = p.tuning ∧
    (p.root = none → (p.rootStage (some c)).root = some c ∧ (p.rootStage (some c)).settleCount = 0) ∧
    (p.root = some c → (p.rootStage (some c)).root = some c ∧ (p.rootStage (some c)).settleCount = 0) ∧
    (∀ root, p.root = some root → root ≠ c → (p.rootStage (some c)).root = some root ∧
      (p.rootStage (some c)).settleCount = if p.previousRoot = some c then min 16 (p.settleCount + 1) else 0) := by
  unfold Pitch.rootStage
  cases hroot : p.root with
  | none => exact ⟨rfl, rfl, fun _ => ⟨rfl, rfl⟩, nofun, nofun⟩
  | some root =>
    dsimp only
    by_cases hsame : c = root
    · rw [if_pos hsame]
      exact ⟨rfl, rfl, nofun, fun h => ⟨h, rfl⟩,
        fun x hx hne => absurd (hsame.trans (Option.some.inj hx)).symm hne⟩
    · rw [if_neg hsame]
      by_cases hsteady : p.previousRoot = some c
      · rw [if_pos hsteady, if_pos hsteady]
        exact ⟨hsteady, rfl, nofun, fun h => absurd (Option.some.inj h).symm hsame, fun x hx _ => ⟨hx, rfl⟩⟩
      · rw [if_neg hsteady, if_neg hsteady]
        exact ⟨rfl, rfl, nofun, fun h => absurd (Option.some.inj h).symm hsame, fun x hx _ => ⟨hx, rfl⟩⟩

/-! ### One voice's pitch -/

/-- A move toward a target (R77, R86). -/
theorem approach_spec (x target : Int) (rate : Nat) :
    ((target - x).natAbs ≤ rate → approach x target rate = target) ∧
    (rate < (target - x).natAbs → approach x target rate = x + (target - x).sign * rate) := by
  unfold approach
  refine ⟨fun h => if_pos h, fun h => ?_⟩
  rw [if_neg (Nat.not_le_of_lt h)]
  split
  · rw [Int.sign_eq_one_of_pos (by omega), one_mul]
  · rw [Int.sign_eq_neg_one_of_neg (by omega), neg_one_mul, sub_eq_add_neg]

/-- The slew moves no further than its rate, or reaches the target (R86). -/
theorem approach_within (x target : Int) (rate : Nat) :
    (approach x target rate - x).natAbs ≤ rate ∨ approach x target rate = target := by
  unfold approach
  split
  · exact .inr rfl
  · split <;> omega

/-- Stages 3 to 6 of a voice (R84 to R92). -/
theorem tune_spec (s : State) (v : Voice) :
    s.tune v = { v with justTarget := (s.tune v).justTarget, justCurrent := (s.tune v).justCurrent,
                        pitch := (s.tune v).pitch, increment := (s.tune v).increment } ∧
    (s.tune v).justTarget = s.justTargetOf v.note v.bank ∧
    (s.tune v).justCurrent = approach v.justCurrent (s.tune v).justTarget (s.programOfBank v.bank).slew ∧
    ((s.tune v).pitch : Int) =
      max 0 (min 127999 (v.baseCurrent + s.pitch.tuning + (s.tune v).justCurrent + s.breath.bend)) ∧
    (s.tune v).increment = incrementOf (s.tune v).pitch :=
  ⟨rfl, rfl, rfl, Int.toNat_of_nonneg (Int.le_max_left _ _), rfl⟩

/-- Stages 3 to 6 over the slots: a FREE one stays (R75). -/
theorem tuneAll_spec (s : State) (u : Fin 8) : (tuneAll s).slot u = { s.slot u with voice := (tuneAll s).voice u } ∧
    (s.voice u = none → (tuneAll s).voice u = none) ∧ ∀ v, s.voice u = some v → (tuneAll s).voice u = some (s.tune v) := by
  have hvoice : (tuneAll s).voice u = (s.voice u).map s.tune := voice_mapVoices s s.tune u
  refine ⟨?_, fun hv => ?_, fun v hv => ?_⟩
  · rw [hvoice]
    exact slot_mapVoices s s.tune u
  · rw [hvoice, hv]
    rfl
  · rw [hvoice, hv]
    rfl

/-- The just target against a root (R84, R85). -/
theorem justTargetOf_eq (s : State) (note : Nat) (b : BankId) : s.justTargetOf note b =
    match s.pitch.root with
    | none => 0
    | some root =>
      if (((note : Int) - root) % 12).toNat = 0 then 0
      else divHalfAway (s.justTable.getD (((note : Int) - root) % 12).toNat 0 * (s.programOfBank b).strength) 16 := rfl

end

/-- Settles O21: the root stage on the lowest note, and the adoption with the rest of the evaluation. -/
theorem rootFollowsSection : Obligations.RootFollowsSection := by
  refine ⟨fun s hr hq => ?_, fun s hr hcount => ?_⟩
  · have hlowest : Lowest s.RootNote (mapVoices (stepGains s).glide (stepGains s)).candidateRoot :=
      (candidateRoot_lowest _).congr rootNote_glided
    refine ⟨_, exec_boundary hr hq, ?_⟩
    rw [boundary_pitch]
    cases hc : (mapVoices (stepGains s).glide (stepGains s)).candidateRoot with
    | none =>
      rw [hc] at hlowest
      rw [rootStage_none]
      exact ⟨⟨fun _ => ⟨rfl, rfl, rfl⟩, fun c hisc _ => absurd hisc (hlowest c)⟩, rfl⟩
    | some c =>
      rw [hc] at hlowest
      obtain ⟨hisc, hmin⟩ := hlowest
      obtain ⟨hprevious, htuning, hadopt, hkeep, hsettle⟩ := rootStage_some s.pitch c
      refine ⟨⟨fun hnone => absurd hisc (hnone c), fun d hisd hmind => ?_⟩, htuning⟩
      obtain rfl : d = c := Nat.le_antisymm (hmind c hisc) (hmin d hisd)
      exact ⟨hprevious, hadopt, hkeep, hsettle⟩
  · have hexec : exec .rootSettled s = .next (rootSettled s) := exec_inside rfl hr rfl rfl
    have hdue : s.rootDue = true := decide_eq_true (by rw [hcount]; exact Nat.le_refl 16)
    rw [rootSettled, if_pos hdue] at hexec
    refine ⟨_, hexec, rfl, rfl, fun u => ?_⟩
    obtain ⟨hslot, hfree, htuned⟩ := tuneAll_spec { s with pitch := { s.pitch with root := s.pitch.previousRoot, settleCount := 0 } } u
    refine ⟨hslot, hfree, fun v hv => ⟨_, htuned v hv, ?_⟩⟩
    obtain ⟨hfields, htarget, hcurrent, hpitch, hincrement⟩ :=
      tune_spec { s with pitch := { s.pitch with root := s.pitch.previousRoot, settleCount := 0 } } v
    refine ⟨hfields, htarget, ?_, ?_, hpitch, hincrement⟩
    · rw [hcurrent]
      exact (approach_spec _ _ _).1
    · rw [hcurrent]
      exact approach_within _ _ _

/-! ### Every voice's pitch -/

/-- A voice that a boundary leaves, and what it was made of: the voice before it, whose own gain step moves neither its note and bank nor
its pitch. -/
theorem voice_of_boundary {s : State} {u : Fin 8} {v w : Voice} (hv : s.voice u = some v) (hw : (boundary s).voice u = some w) :
    ∃ x, w = (stepGains s).sung x ∧ (stepGains s).programOfBank v.bank = s.programOfBank v.bank ∧
      x.note = v.note ∧ x.bank = v.bank ∧ x.baseTarget = v.baseTarget ∧ x.baseCurrent = v.baseCurrent ∧
      x.justCurrent = v.justCurrent := by
  rw [boundary_voice, Option.map_eq_some_iff] at hw
  obtain ⟨x, hx, rfl⟩ := hw
  have hstepped : (mapSlots s.gainStep s).voice u = some x := by rwa [State.voice, slot_mapSlots]
  have hbank : (stepGains s).programOfBank x.bank = s.programOfBank x.bank :=
    loadPending_programOfBank (referenced_of_voice hstepped)
  obtain ⟨y, hy, o, ⟨rfl, -⟩ | ⟨-, m, rfl, -⟩⟩ := gainStep_voice hx
  · obtain rfl := Option.some.inj (hv.symm.trans hy)
    exact ⟨_, rfl, hbank, rfl, rfl, rfl, rfl, rfl⟩
  · obtain rfl := Option.some.inj (hv.symm.trans hy)
    exact ⟨_, rfl, hbank, rfl, rfl, rfl, rfl, rfl⟩

/-- The glide of a voice (R77). -/
theorem glide_spec (s : State) (v : Voice) :
    let p := s.programOfBank v.bank
    let dist : Int := v.baseTarget - v.baseCurrent
    (p.portamento = 0 ∨ dist.natAbs ≤ p.portamento → (s.glide v).baseCurrent = v.baseTarget) ∧
    (p.portamento ≠ 0 → p.portamento < dist.natAbs → (s.glide v).baseCurrent = v.baseCurrent + dist.sign * p.portamento) := by
  obtain ⟨hnear, hfar⟩ := approach_spec v.baseCurrent v.baseTarget (s.programOfBank v.bank).portamento
  have hglide : (s.glide v).baseCurrent = if (s.programOfBank v.bank).portamento = 0 then (v.baseTarget : Int)
      else approach v.baseCurrent v.baseTarget (s.programOfBank v.bank).portamento := rfl
  dsimp only
  rw [hglide]
  refine ⟨fun h => ?_, fun hzero hd => (if_neg hzero).trans (hfar hd)⟩
  by_cases hzero : (s.programOfBank v.bank).portamento = 0
  · exact if_pos hzero
  · exact (if_neg hzero).trans (hnear (h.resolve_left hzero))

theorem rootStage_tuning (p : Pitch) (c : Option Nat) : (p.rootStage c).tuning = p.tuning := by
  cases c with
  | none => rfl
  | some c => exact (rootStage_some p c).2.1

/-- Settles O22: glide and stages 3 to 6 of each voice, with the state's own root, table and tuning. -/
theorem boundaryComposesPitch : Obligations.BoundaryComposesPitch := by
  intro s hr hq
  refine ⟨_, exec_boundary hr hq, fun hsteady u v w hv hw => ?_⟩
  obtain ⟨x, rfl, hprogram, hnote, hbank, htarget, hbase, hjust⟩ := voice_of_boundary hv hw
  have hpitch : (stepGains s).glided.pitch = (boundary s).pitch := by
    rw [boundary, evaluatePitch_eq]
    rfl
  have hsung : (stepGains s).sung x = (stepGains s).glided.tune ((stepGains s).glide x) := by
    refine if_neg ?_
    rw [State.rootDue, hpitch]
    exact fun h => Nat.not_le_of_lt hsteady (of_decide_eq_true h)
  have htuning : (stepGains s).glided.pitch.tuning = s.pitch.tuning := by
    rw [hpitch, boundary_pitch, rootStage_tuning]
  have hbreath : (stepGains s).glided.breath = s.breath := (voiceWork_stepGains s).breath
  have htable : (stepGains s).glided.justTable = s.justTable := (voiceWork_stepGains s).justTable
  have hprogram' : (stepGains s).glided.programOfBank v.bank = s.programOfBank v.bank := hprogram
  obtain ⟨-, hgoal, hcurrent, hcomposed, hincrement⟩ := tune_spec (stepGains s).glided ((stepGains s).glide x)
  obtain ⟨hnear, hfar⟩ := glide_spec (stepGains s) x
  have hnote' : ((stepGains s).glide x).note = v.note := hnote
  have hbank' : ((stepGains s).glide x).bank = v.bank := hbank
  have hjust' : ((stepGains s).glide x).justCurrent = v.justCurrent := hjust
  rw [hnote', hbank', justTargetOf_eq, hpitch, htable, hprogram'] at hgoal
  rw [hjust', hbank', hprogram'] at hcurrent
  rw [htuning, hbreath] at hcomposed
  rw [hbank, htarget, hbase, hprogram] at hnear hfar
  obtain ⟨hreach, hslew⟩ := approach_spec v.justCurrent ((stepGains s).glided.tune ((stepGains s).glide x)).justTarget
    (s.programOfBank v.bank).slew
  rw [hsung]
  exact ⟨htarget, hnear, hfar, hgoal, ⟨fun h => hcurrent.trans (hreach h), fun h => hcurrent.trans (hslew h)⟩, hcomposed, hincrement⟩

/-! ### Ages and timers -/

/-- A rank at a boundary (R105, R107, R108). -/
theorem tick_spec (k : Rank) :
    (k.stage = .queued → k.tick = { k with queuedAge := min 10 (k.queuedAge + 1) }) ∧
    (k.stage = .window → k.tick = { k with windowAge := min 4 (k.windowAge + 1) }) ∧
    (k.stage = .localPending → k.tick = { k with localDue := true }) ∧
    (k.stage ∉ [Stage.queued, .window, .localPending] → k.tick = k) := by
  unfold Rank.tick
  cases hs : k.stage with
  | queued => exact ⟨fun _ => rfl, nofun, nofun, fun h => absurd List.mem_cons_self h⟩
  | window => exact ⟨nofun, fun _ => rfl, nofun, fun h => absurd (by decide) h⟩
  | localPending => exact ⟨nofun, nofun, fun _ => rfl, fun h => absurd (by decide) h⟩
  | _ => exact ⟨nofun, nofun, nofun, fun _ => rfl⟩

/-- Settles O23: the ticks of every block, and the work on voices that moves none of them. -/
theorem boundaryAdvancesTimers : Obligations.BoundaryAdvancesTimers := by
  intro s hr hq
  have hgains := voiceWork_stepGains s
  have hline : (stepGains s).line = s.line := loadPending_line _
  have hharmony : (stepGains s).harmony = s.harmony := stepGains_harmony s
  have hboundary : boundary s = tickAll { stepGains s with
      slots := (evaluatePitch (stepGains s)).slots, pitch := (evaluatePitch (stepGains s)).pitch } := by
    rw [boundary, evaluatePitch_eq]
    rfl
  refine ⟨_, exec_boundary hr hq, ?_⟩
  rw [hboundary]
  refine ⟨congrArg Sensor.tick hgains.sensor, fun r => ?_, ?_, fun st => ?_, ?_,
    congrArg (fun a : Audio => { a with sampleIndex := 0 }) hgains.audio, congrArg Panel.tick hgains.panel, hgains.breath,
    hgains.resolver, hgains.detectors⟩
  · have hrank : ∀ x, State.rank (tickAll { stepGains s with
        slots := x, pitch := (evaluatePitch (stepGains s)).pitch }) r = (s.rank r).tick := fun x =>
      (rank_map (stepGains s) Rank.tick r).trans (congrArg Rank.tick (rank_congr hharmony r))
    rw [hrank]
    exact tick_spec _
  · show (stepGains s).map.entries = _
    rw [hgains.map]
  · show ((stepGains s).map.stations.map StationRecord.tick).get st = _
    rw [Eight.get_map, hgains.map]
    rfl
  · show (stepGains s).line.tick = _
    rw [hline]
    obtain ⟨state, _, _, _, _, _, _, _, _, _, _⟩ := s.line
    cases state <;> rfl

end Sys2Proof.Machine

/-!
Frames of the peers that place or remove entries (R112, R113, R121, R122, R125 to R127, R129). O36, O37 and O38.
-/

namespace Sys2Proof.Machine

/-! ### A yield, from outside -/

/-- A plan leaves the state, exhausts its rank or makes a claim (R100, R102, R103). -/
theorem plan_cases (r : Fin 3) (start : Nat) (keep : Bool) (s : State) : plan r start keep s = s ∨ plan r start keep s = exhaust r s ∨
    ∃ pos note b, plan r start keep s = makeClaim r pos note b keep s := by
  unfold plan
  split
  · exact .inl rfl
  · dsimp only
    split
    · exact .inr (.inl rfl)
    · exact .inr (.inr ⟨_, _, _, rfl⟩)

theorem yieldRank_of_none {r : Fin 3} {s : State} (h : (s.rank r).claim = none) : yieldRank r s = s := by
  simp only [yieldRank, h]

theorem yieldRank_rank_other {r q : Fin 3} (hq : q ≠ r) (s : State) : (yieldRank r s).rank q = s.rank q := by
  cases hclaim : (s.rank r).claim with
  | none => rw [yieldRank_of_none hclaim]
  | some k => rw [yieldRank_eq hclaim, plan_rank_other hq, yielded_rank, if_neg hq]

theorem yieldRank_map (r : Fin 3) (s : State) : (yieldRank r s).map = s.map := (voiceWork_yieldRank r s).map

theorem slot_of_rankTag {s : State} {r : Fin 3} {u : Fin 8} (h : s.rankTag r = some u) : (s.rank r).slot = some u := by
  unfold State.rankTag at h
  split at h
  · next t ht =>
    split at h
    · split at h
      · rwa [ht]
      · cases h
    · cases h
  · cases h

/-- A yield whose rank has nothing left to plan (R58, R103, R109). -/
theorem yieldRank_of_short {r : Fin 3} {s : State} {k : Claim} {lead : Voice} (hclaim : (s.rank r).claim = some k)
    (hlead : s.leadVoice = some lead) (hrole : ∀ w ∈ (s.rank r).slot, ∀ v ∈ s.voice w, v.role = .harmony r)
    (hshort : ((s.programOfBank lead.bank).rankPrograms.get r).intervals.length ≤ (s.rank r).position + 1) :
    ((yieldRank r s).rank r).stage = .exhausted ∧ ((yieldRank r s).rank r).claim = none ∧ ((yieldRank r s).rank r).slot = none ∧
    (k.note ∈ ((yieldRank r s).rank r).refused ∨ 3 ≤ ((yieldRank r s).rank r).refused.length) ∧
    (∀ w, s.rankTag r = some w → ∃ v, (yieldRank r s).voice w = some v ∧ v.state = .releasingWithdraw none) ∧
    ∀ y ∈ (yieldRank r s).line.queue, y.record.isClaim r = false := by
  have hlead' : (yielded r k s).leadVoice = some lead :=
    (yielded_leadVoice k fun u v hu hv => hrole u (slot_of_rankTag hu) v hv).trans hlead
  have hyield := (yieldRank_eq hclaim).trans (plan_yielded_of_short hlead' hshort)
  have hrank : (yieldRank r s).rank r = { s.rank r with
      stage := .exhausted, claim := none, slot := none, localDue := false, refused := refuse k.note (s.rank r).refused } := by
    rw [hyield]
    refine (rank_setRank_same (yielded r k s) r _).trans ?_
    rw [yielded_rank, if_pos rfl]
  rw [hrank]
  refine ⟨rfl, rfl, rfl, ?_, fun w hw => ?_, fun y hy => ?_⟩
  · show k.note ∈ refuse k.note (s.rank r).refused ∨ 3 ≤ (refuse k.note (s.rank r).refused).length
    unfold refuse
    split
    · next h => exact h
    · exact .inl (List.mem_append_right _ List.mem_cons_self)
  · have hvoice : (yieldRank r s).voice w = (withdrawn r s).voice w := by
      rw [hyield]
      rfl
    obtain ⟨v, hv⟩ : ∃ v, s.voice w = some v := by
      unfold State.rankTag at hw
      split at hw
      · split at hw
        · next v hv =>
          split at hw
          · obtain rfl := Option.some.inj hw
            exact ⟨v, hv⟩
          · cases hw
        · cases hw
      · cases hw
    refine ⟨{ v with state := .releasingWithdraw none }, ?_, rfl⟩
    rw [hvoice, withdrawn_of_tag hw hv, State.voice, State.slot, Eight.get_set_same]
  · rw [hyield] at hy
    have hmem : y ∈ (yielded r k s).line.queue := hy
    rw [yielded_frame] at hmem
    simpa using (List.mem_filter.1 hmem).2

/-- A check of the ranks in order that only one rank can meet. -/
theorem foldl_allRanks_one {p : State → Fin 3 → Bool} {f : Fin 3 → State → State} {s : State} (r : Fin 3)
    (hs : ∀ q, q ≠ r → p s q = false) (hf : ∀ q, q ≠ r → p (f r s) q = false) :
    allRanks.foldl (fun x q => if p x q = true then f q x else x) s = if p s r = true then f r s else s := by
  match r with
  | 0 => by_cases h : p s 0 = true <;> simp [allRanks, hs 1, hs 2, hf 1, hf 2, h]
  | 1 => by_cases h : p s 1 = true <;> simp [allRanks, hs 0, hs 2, hf 2, h]
  | 2 => by_cases h : p s 2 = true <;> simp [allRanks, hs 0, hs 1, h]

theorem foldl_allRanks_none {p : State → Fin 3 → Bool} {f : Fin 3 → State → State} {s : State} (hs : ∀ q, p s q = false) :
    allRanks.foldl (fun x q => if p x q = true then f q x else x) s = s := by
  simp [allRanks, hs]

/-! ### The check of an entry -/

theorem claims_iff {k : Rank} {n : Nat} : k.claims n = true ↔ ∃ c, k.claim = some c ∧ c.note = n := by
  simp [Rank.claims]

/-- When a rank yields to an entry (R112, R113). -/
theorem yieldsTo_iff {s : State} {r : Fin 3} {e : MapEntry} : s.yieldsTo r e = true ↔
    (∃ k, (s.rank r).claim = some k ∧ k.note = e.note) ∧
      ((s.rank r).stage ∈ [Stage.queued, .window, .localPending] ∨
        ((s.rank r).stage = .sounding ∧ (e.role = .lead ∨ e.station < s.power.station))) := by
  unfold State.yieldsTo
  rw [Bool.and_eq_true, claims_iff]
  refine and_congr Iff.rfl ?_
  cases e.role with
  | lead => simp [Rank.inStage, or_assoc]
  | harmony => simp [Rank.inStage]

theorem yieldsTo_of_not_claims {s : State} {r : Fin 3} {e : MapEntry} (h : (s.rank r).claims e.note = false) :
    s.yieldsTo r e = false := by
  unfold State.yieldsTo
  rw [h]
  rfl

theorem checkEntry_of_not_claims {s : State} {e : MapEntry} (h : ∀ r, (s.rank r).claims e.note = false) : checkEntry e s = s :=
  foldl_allRanks_none (p := fun x r => x.yieldsTo r e) (f := yieldRank) fun r => yieldsTo_of_not_claims (h r)

theorem checkEntry_of_one {s : State} {e : MapEntry} (r : Fin 3) (h : ∀ q, q ≠ r → (s.rank q).claims e.note = false) :
    checkEntry e s = if s.yieldsTo r e = true then yieldRank r s else s :=
  foldl_allRanks_one (p := fun x r => x.yieldsTo r e) (f := yieldRank) r (fun q hq => yieldsTo_of_not_claims (h q hq)) fun q hq =>
    yieldsTo_of_not_claims (by rw [yieldRank_rank_other hq]; exact h q hq)

/-- A state that has heard a frame of a station: the reading over, the station present at age 0 (R121, R154). -/
def State.heardFrom (s : State) (st : Fin 8) : State :=
  { s with
    map := { s.map with stations := s.map.stations.set st { present := true, age := 0 } }
    line := { s.line with readingAbandoned := false } }

section
variable {s : State} {frame : List Byte} {st u : Fin 8}

theorem exec_peerNoteStart {n c : Nat} {role : LineRole} (hr : s.Running) (hq : s.Quiet) (hline : s.line.state ≠ .disabled)
    (hv : verdict frame = .good { station := st, payload := .noteStart u n role c }) (hst : st ≠ s.power.station) :
    exec (.peerNoteStart frame) s = .next
      (checkEntry { station := st, tag := u, note := n, role := role, levelClass := c }
        { s.heardFrom st with map := { (s.heardFrom st).map with
            entries := insertEntry { station := st, tag := u, note := n, role := role, levelClass := c } s.map.entries } }) := by
  have hexec : exec (.peerNoteStart frame) s = .next (peerNoteStart frame s) := exec_quiet rfl hr hq
  rw [hexec]
  simp only [peerNoteStart, peerFrame_eq_some.2 ⟨hv, hline, hst⟩]
  rfl

theorem exec_peerNoteEnd (hr : s.Running) (hq : s.Quiet) (hline : s.line.state ≠ .disabled)
    (hv : verdict frame = .good { station := st, payload := .noteEnd u }) (hst : st ≠ s.power.station) :
    exec (.peerNoteEnd frame) s = .next { s.heardFrom st with map := { (s.heardFrom st).map with
      entries := removeEntry (8 * st.val + u.val) s.map.entries } } := by
  have hexec : exec (.peerNoteEnd frame) s = .next (peerNoteEnd frame s) := exec_quiet rfl hr hq
  rw [hexec]
  simp only [peerNoteEnd, peerFrame_eq_some.2 ⟨hv, hline, hst⟩]
  rfl

theorem exec_peerRoster {es : List RosterEntry} (hr : s.Running) (hq : s.Quiet) (hline : s.line.state ≠ .disabled)
    (hv : verdict frame = .good { station := st, payload := .roster es }) (hst : st ≠ s.power.station) :
    exec (.peerRoster frame) s = .next
      (((replaceStation st es s.map.entries).filter fun e => decide (e.station = st)).foldl (fun x e => checkEntry e x)
        { s.heardFrom st with map := { (s.heardFrom st).map with entries := replaceStation st es s.map.entries } }) := by
  have hexec : exec (.peerRoster frame) s = .next (peerRoster frame s) := exec_quiet rfl hr hq
  rw [hexec]
  simp only [peerRoster, peerFrame_eq_some.2 ⟨hv, hline, hst⟩]
  rfl

end

theorem checkEntry_map (e : MapEntry) (s : State) : (checkEntry e s).map = s.map := (voiceWork_checkEntry e s).map

/-- Settles O36: the entry placed, then the one rank its check can meet. -/
theorem peerNoteStartPlacesAndYields : Obligations.PeerNoteStartPlacesAndYields := by
  refine ⟨fun s frame st u n c role hr hq hline hv hst horder => ?_,
    fun s frame st u n c role r k hr hq hline hv hst hstage hclaim hk hothers => ?_⟩
  · refine ⟨_, exec_peerNoteStart hr hq hline hv hst, ?_⟩
    rw [checkEntry_map]
    refine ⟨rfl, insertEntry_inOrder horder, fun e => (mem_insertEntry horder).trans ?_, fun hnone => checkEntry_of_not_claims hnone⟩
    rw [Ne, key_eq_iff]
  · obtain ⟨e, he⟩ : ∃ e : MapEntry, e = { station := st, tag := u, note := n, role := role, levelClass := c } := ⟨_, rfl⟩
    obtain ⟨s', hs'⟩ : ∃ s' : State, s' = { s.heardFrom st with map := { (s.heardFrom st).map with
        entries := insertEntry e s.map.entries } } := ⟨_, rfl⟩
    have hexec := exec_peerNoteStart hr hq hline hv hst
    rw [← he, ← hs'] at hexec
    have hrank : ∀ q, s'.rank q = s.rank q := fun q => by
      rw [hs']
      rfl
    have hcheck : checkEntry e s' = if s'.yieldsTo r e = true then yieldRank r s' else s' :=
      checkEntry_of_one r fun q hq => by
        rw [hrank, he]
        exact hothers q hq
    have hyields : s'.yieldsTo r e = true ↔ role = .lead ∨ (s.rank r).stage ≠ .sounding ∨ st < s.power.station := by
      have hpower : s'.power = s.power := by rw [hs']; rfl
      rw [yieldsTo_iff, hrank, hclaim, hpower, he]
      simp only [List.mem_cons, List.not_mem_nil, or_false] at hstage ⊢
      constructor
      · rintro ⟨-, hwaits | ⟨-, hlead | hlower⟩⟩
        · exact .inr (.inl fun hs => by rw [hs] at hwaits; simp at hwaits)
        · exact .inl hlead
        · exact .inr (.inr hlower)
      · intro h
        refine ⟨⟨k, rfl, hk⟩, ?_⟩
        obtain hs | hs | hs | hs := hstage
        · exact .inl (.inl hs)
        · exact .inl (.inr (.inl hs))
        · exact .inl (.inr (.inr hs))
        · exact .inr ⟨hs, h.imp_right fun h => h.resolve_left (absurd hs)⟩
    refine ⟨_, s', hexec, ?_, ?_⟩
    · rw [checkEntry_map, hs']
      rfl
    · rw [hcheck]
      refine ⟨fun h => if_pos (hyields.2 h), fun ⟨hrole, hs, hhigher⟩ => if_neg fun h => ?_, fun lead hlead hslot hshort h => ?_,
        fun q hq => ?_⟩
      · obtain h | h | h := hyields.1 h
        · rw [hrole] at h
          cases h
        · exact h hs
        · exact absurd h (lt_asymm hhigher)
      · rw [if_pos (hyields.2 h)]
        have hlead' : s'.leadVoice = some lead := by
          rw [hs']
          exact hlead
        obtain ⟨hexhausted, hnone, hfree, -, hvoice, hqueue⟩ := yieldRank_of_short (s := s') (r := r) (k := k)
          (by rw [hrank]; exact hclaim) hlead' (by rw [hrank, hs']; exact hslot) (by rw [hrank, hs']; exact hshort)
        refine ⟨hexhausted, hnone, hfree, fun w hw => hvoice w ?_, hqueue⟩
        rw [hs']
        exact hw
      · rw [apply_ite (fun x : State => x.rank q), yieldRank_rank_other hq, ite_self, hrank]

/-- Settles O37: the filters of the two removals. -/
theorem noteEndAndExpiryRemoveEntries : Obligations.NoteEndAndExpiryRemoveEntries := by
  refine ⟨fun s frame st u hr hq hline hv hst => ⟨_, exec_peerNoteEnd hr hq hline hv hst, ?_⟩, fun s st hr hpresent hage => ?_⟩
  · have hfilter : removeEntry (8 * st.val + u.val) s.map.entries =
        s.map.entries.filter fun e => !(decide (e.station = st) && decide (e.tag = u)) := by
      refine congrArg (fun p => s.map.entries.filter p) (funext fun e => ?_)
      have hkey : e.key = 8 * st.val + u.val ↔ e.station = st ∧ e.tag = u := by
        unfold MapEntry.key
        omega
      rw [← Bool.decide_and, ← decide_not]
      exact decide_eq_decide.2 (not_congr hkey)
    rw [hfilter]
    rfl
  · have hexec : exec (.stationExpiry st) s = .next (stationExpiry st s) := exec_inside rfl hr rfl rfl
    have hlimit : Config.expiryAge ≤ (s.map.stations.get st).age := by
      rw [hage]
      exact Nat.le_refl 200
    rw [hexec, stationExpiry, if_pos ⟨hpresent, hlimit⟩]
    rfl

/-- The entries of one station, in order, are in the order of their tags (R123). -/
theorem InOrder.byTag {es : List MapEntry} (h : InOrder es) (st : Fin 8) :
    (es.filter fun e => decide (e.station = st)).Pairwise fun a b => a.tag < b.tag := by
  refine (h.filter fun e => decide (e.station = st)).imp_of_mem fun {a b} ha hb hkey => ?_
  have hsa := of_decide_eq_true (List.mem_filter.1 ha).2
  have hsb := of_decide_eq_true (List.mem_filter.1 hb).2
  unfold MapEntry.key at hkey
  rw [hsa, hsb] at hkey
  omega

theorem checkEntries_of_no_claims {s : State} (h : ∀ r, (s.rank r).claim = none) (es : List MapEntry) :
    es.foldl (fun x e => checkEntry e x) s = s := by
  induction es with
  | nil => rfl
  | cons e es ih =>
    have hnone : ∀ r, (s.rank r).claims e.note = false := fun r => by simp [Rank.claims, h r]
    rw [List.foldl_cons, checkEntry_of_not_claims hnone, ih]

/-- Settles O38: the station's entries replaced, then checked one by one. -/
theorem peerRosterReplacesEntries : Obligations.PeerRosterReplacesEntries := by
  refine ⟨fun s frame st es hr hq hline hv hst horder => ?_, fun s r e => yieldsTo_iff⟩
  have hmap : ∀ (l : List MapEntry) (x : State), (l.foldl (fun x e => checkEntry e x) x).map = x.map := fun l x =>
    (voiceWork_checkEntries l x).map
  refine ⟨_, (replaceStation st es s.map.entries).filter fun e => decide (e.station = st), exec_peerRoster hr hq hline hv hst, ?_⟩
  rw [hmap]
  refine ⟨rfl, replaceStation_inOrder st es horder, fun e => (mem_replaceStation st es horder e).trans ?_,
    (replaceStation_inOrder st es horder).byTag st, fun e => ?_, rfl, fun hnone => checkEntries_of_no_claims ?_ _⟩
  · rw [or_comm, and_comm]
    refine or_congr Iff.rfl ⟨fun ⟨before, after, x, hsplit, hx, hlast⟩ => ?_, And.right⟩
    exact ⟨by rw [hx]; rfl, before, after, x, hsplit, hx, hlast⟩
  · rw [List.mem_filter, decide_eq_true_iff, and_comm]
  · exact hnone

end Sys2Proof.Machine

/-!
A peer's claim and a peer's HELD (R110, R111, R115, R121, R128). O39 and O40.
-/

namespace Sys2Proof.Machine

/-! ### What a yield leaves of voices, records and its rank -/

/-- A withdrawal leaves no SOUNDING voice that was not there. -/
theorem withdrawn_sounding {r : Fin 3} {s : State} {u : Fin 8} {v : Voice} (hv : (withdrawn r s).voice u = some v)
    (hs : v.state = .sounding) : s.voice u = some v := by
  unfold withdrawn at hv
  split at hv
  · next w _ =>
    rw [releaseSlot_voice] at hv
    split at hv
    · next hu =>
      obtain ⟨x, hx, rfl⟩ := Option.map_eq_some_iff.1 hv
      split at hs
      · cases hs
      · next hactive => rw [if_neg hactive, hu, hx]
    · exact hv
  · exact hv

/-- A claim that keeps no slot puts its voice PROVISIONAL where none was active (R57, R102). -/
theorem makeClaim_sounding {r : Fin 3} {pos note : Nat} {b : BankId} {s : State} {u : Fin 8} {v : Voice}
    (hv : (makeClaim r pos note b false s).voice u = some v) (hs : v.state = .sounding) : s.voice u = some v := by
  rw [voice_congr (makeClaim_spec r pos note b false s).1] at hv
  have hrequest : requestSlot r note b false (s.numbered r) = allocate (.harmony r) note b none (s.numbered r) := rfl
  rw [hrequest, allocate] at hv
  split at hv
  · next w _ =>
    rw [voice_loadPending_start] at hv
    split at hv
    · obtain rfl := Option.some.inj hv
      cases hs
    · exact hv
  · exact hv

theorem plan_sounding {r : Fin 3} {start : Nat} {s : State} {u : Fin 8} {v : Voice} (hv : (plan r start false s).voice u = some v)
    (hs : v.state = .sounding) : s.voice u = some v := by
  obtain h | h | ⟨pos, note, b, h⟩ := plan_cases r start false s
  · rwa [h] at hv
  · rw [h, exhaust_eq] at hv
    exact withdrawn_sounding hv hs
  · rw [h] at hv
    exact makeClaim_sounding hv hs

theorem yieldRank_sounding {r : Fin 3} {s : State} {u : Fin 8} {v : Voice} (hv : (yieldRank r s).voice u = some v)
    (hs : v.state = .sounding) : s.voice u = some v := by
  cases hclaim : (s.rank r).claim with
  | none => rwa [yieldRank_of_none hclaim] at hv
  | some k =>
    rw [yieldRank_eq hclaim] at hv
    have hyielded := plan_sounding hv hs
    have hslots : (yielded r k s).slots = (withdrawn r s).slots := by rw [yielded_frame]
    rw [voice_congr hslots] at hyielded
    exact withdrawn_sounding hyielded hs

theorem withdrawn_held {r : Fin 3} {s : State} {y : Queued} (hy : y ∈ (withdrawn r s).line.queue) (h : y.record.isHeld = true) :
    y ∈ s.line.queue := by
  obtain hmem | ⟨u, rfl⟩ := mem_withdrawn_queue hy
  · exact hmem
  · cases h

/-- A plan queues no HELD (R102, R103). -/
theorem plan_held {r : Fin 3} {start : Nat} {s : State} {y : Queued} (hy : y ∈ (plan r start false s).line.queue)
    (h : y.record.isHeld = true) : y ∈ s.line.queue := by
  obtain hp | hp | ⟨pos, note, b, hp⟩ := plan_cases r start false s
  · rwa [hp] at hy
  · rw [hp, exhaust_eq] at hy
    exact withdrawn_held hy h
  · rw [hp, (makeClaim_spec r pos note b false s).2.2.2] at hy
    split at hy
    · obtain rfl | hmem := Line.mem_admit hy
      · cases h
      · exact hmem
    · exact hy

theorem yieldRank_held {r : Fin 3} {s : State} {y : Queued} (hy : y ∈ (yieldRank r s).line.queue) (h : y.record.isHeld = true) :
    y ∈ s.line.queue := by
  cases hclaim : (s.rank r).claim with
  | none => rwa [yieldRank_of_none hclaim] at hy
  | some k =>
    rw [yieldRank_eq hclaim] at hy
    have hmem := plan_held hy h
    rw [yielded_frame] at hmem
    exact withdrawn_held (List.mem_of_mem_filter hmem) h

/-- A plan leaves its rank in no window (R99, R103). -/
theorem yieldRank_not_window {r : Fin 3} {s : State} {k : Claim} (hclaim : (s.rank r).claim = some k) :
    ((yieldRank r s).rank r).stage ≠ .window := by
  rw [yieldRank_eq hclaim]
  obtain h | h | ⟨pos, note, b, h⟩ := plan_cases r ((s.rank r).position + 1) false (yielded r k s)
  · rw [h, yielded_rank, if_pos rfl]
    nofun
  · rw [h, exhaust_rank, if_pos rfl]
    nofun
  · rw [h, (makeClaim_rank r pos note b false (yielded r k s)).2.1]
    split <;> nofun

/-! ### The answer to a claim -/

theorem soundsNote_iff {s : State} {n : Nat} :
    s.soundsNote n = true ↔ ∃ u v, s.voice u = some v ∧ v.state = .sounding ∧ v.note = n := by
  unfold State.soundsNote
  rw [List.any_eq_true]
  constructor
  · rintro ⟨u, -, h⟩
    split at h
    · next v hv => exact ⟨u, v, hv, by simpa [Voice.sounding] using h⟩
    · cases h
  · rintro ⟨u, v, hv, hs, hn⟩
    refine ⟨u, mem_allEight u, ?_⟩
    rw [hv]
    simp [Voice.sounding, hs, hn]

/-- The answer to a peer's claim: the first condition that holds (R115). -/
theorem answer_spec (s : State) (n : Nat) :
    ((∃ u v, s.voice u = some v ∧ v.state = .sounding ∧ v.note = n) → s.answer n = some .sounding) ∧
    ((¬ ∃ u v, s.voice u = some v ∧ v.state = .sounding ∧ v.note = n) →
      (∃ r : Fin 3, (s.rank r).stage = .window ∧ (s.rank r).claims n = true) → s.answer n = some .earlierClaim) ∧
    ((¬ ∃ u v, s.voice u = some v ∧ v.state = .sounding ∧ v.note = n) →
      (¬ ∃ r : Fin 3, (s.rank r).stage = .window ∧ (s.rank r).claims n = true) → s.answer n = none) := by
  have hwindow : (allRanks.any fun r => (s.rank r).inStage [.window] && (s.rank r).claims n) = true ↔
      ∃ r : Fin 3, (s.rank r).stage = .window ∧ (s.rank r).claims n = true := by
    simp [List.any_eq_true, mem_allRanks, Rank.inStage]
  unfold State.answer
  rw [← soundsNote_iff, ← hwindow]
  exact ⟨fun h => if_pos h, fun h hw => (if_neg h).trans (if_pos hw), fun h hw => (if_neg h).trans (if_neg hw)⟩

section
variable {s : State} {frame : List Byte} {st : Fin 8}

/-- A rank that a peer's claim on a note makes yield (R111). -/
def State.waitsOn (s : State) (n : Nat) (r : Fin 3) : Bool := (s.rank r).claims n && (s.rank r).inStage [.queued, .localPending]

theorem waitsOn_of_not_claims {n : Nat} {r : Fin 3} (h : (s.rank r).claims n = false) : s.waitsOn n r = false := by
  unfold State.waitsOn
  rw [h]
  rfl

/-- The answered part of a peer's claim (R115). -/
def State.answered (s : State) (st : Fin 8) (k : Byte) (n : Nat) : State :=
  (s.answer n).elim s fun reason => enqueue (.held st k n reason) s

theorem exec_peerClaim {k : Byte} {n : Nat} (hr : s.Running) (hq : s.Quiet) (hline : s.line.state ≠ .disabled)
    (hv : verdict frame = .good { station := st, payload := .claim k n }) (hst : st ≠ s.power.station) :
    exec (.peerClaim frame) s = .next
      (State.answered (allRanks.foldl (fun x r => if x.waitsOn n r = true then yieldRank r x else x) (s.heardFrom st)) st k n) := by
  have hexec : exec (.peerClaim frame) s = .next (peerClaim frame s) := exec_quiet rfl hr hq
  have hfold : peerClaim frame s = match State.answer (allRanks.foldl (fun x r => if x.waitsOn n r = true then yieldRank r x else x)
      (s.heardFrom st)) n with
    | some reason => enqueue (.held st k n reason)
        (allRanks.foldl (fun x r => if x.waitsOn n r = true then yieldRank r x else x) (s.heardFrom st))
    | none => allRanks.foldl (fun x r => if x.waitsOn n r = true then yieldRank r x else x) (s.heardFrom st) := by
    simp only [peerClaim, peerFrame_eq_some.2 ⟨hv, hline, hst⟩]
    rfl
  rw [hexec, hfold, State.answered]
  split
  · next h => rw [h]; rfl
  · next h => rw [h]; rfl

theorem answered_of_none {k : Byte} {n : Nat} (h : s.answer n = none) : s.answered st k n = s := by
  unfold State.answered
  rw [h]
  rfl

/-- An answer joins the queue of an ACTIVE line with room (R115, R145, R148). -/
theorem answered_of_some {k : Byte} {n : Nat} {reason : HeldReason} (h : s.answer n = some reason) (ha : s.line.state = .active)
    (hroom : s.line.queue.length < 16) : s.answered st k n =
      { s with line := { s.line with queue := joinClass (Queued.fresh (.held st k n reason)) s.line.queue } } := by
  unfold State.answered
  rw [h]
  show enqueue _ s = _
  unfold enqueue
  have hlimit : s.line.queue.length < Config.queueLimit := hroom
  rw [Line.enqueue_held ha rfl, if_pos hlimit]

theorem answered_of_not_active {k : Byte} {n : Nat} (ha : s.line.state ≠ .active) : s.answered st k n = s := by
  unfold State.answered
  cases s.answer n with
  | none => rfl
  | some reason =>
    show enqueue _ s = _
    unfold enqueue
    rw [admit_of_not_active ha]

end

/-- Settles O39: a claim no rank waits on is answered, one a rank waits on makes it yield. -/
theorem peerClaimYieldsOrIsAnswered : Obligations.PeerClaimYieldsOrIsAnswered := by
  refine ⟨fun s frame st k n hr hq hline hv hst hnone hroom => ?_,
    fun s frame st number n r k hr hq hline hv hst hstage hclaim hk hothers hsilent => ?_⟩
  · intro sounds windowed
    have hquiet : ∀ q, (s.heardFrom st).waitsOn n q = false := fun q => by
      cases hclaims : (s.rank q).claims n with
      | false => exact waitsOn_of_not_claims hclaims
      | true =>
        obtain ⟨hqueued, hpending⟩ := hnone q hclaims
        have hrank : (s.heardFrom st).rank q = s.rank q := rfl
        simp [State.waitsOn, hrank, Rank.inStage, hqueued, hpending]
    have hexec := exec_peerClaim hr hq hline hv hst
    rw [foldl_allRanks_none hquiet] at hexec
    obtain ⟨hsounding, hwindow, hsilent⟩ := answer_spec (s.heardFrom st) n
    refine ⟨_, hexec, ?_⟩
    by_cases ha : s.line.state = .active
    · have ha' : (s.heardFrom st).line.state = .active := ha
      have hroom' : (s.heardFrom st).line.queue.length < 16 := hroom
      by_cases hs : sounds
      · rw [answered_of_some (hsounding hs) ha' hroom']
        exact ⟨rfl, fun _ _ => joinClass_perm _ _, fun _ h => absurd hs h, fun h => absurd hs (h.resolve_left (absurd ha)).1, rfl⟩
      · by_cases hw : windowed
        · rw [answered_of_some (hwindow hs hw) ha' hroom']
          exact ⟨rfl, fun _ h => absurd h hs, fun _ _ _ => joinClass_perm _ _,
            fun h => absurd hw (h.resolve_left (absurd ha)).2, rfl⟩
        · rw [answered_of_none (hsilent hs hw)]
          exact ⟨rfl, fun _ h => absurd h hs, fun _ _ h => absurd h hw, fun _ => rfl, rfl⟩
    · rw [answered_of_not_active (s := s.heardFrom st) ha]
      exact ⟨rfl, fun h => absurd h ha, fun h => absurd h ha, fun _ => rfl, rfl⟩
  · have hexec := exec_peerClaim hr hq hline hv hst
    have hrank : ∀ q, (s.heardFrom st).rank q = s.rank q := fun q => rfl
    have hwaits : (s.heardFrom st).waitsOn n r = true := by
      rw [State.waitsOn, hrank, claims_iff.2 ⟨k, hclaim, hk⟩]
      simpa [Rank.inStage] using hstage
    rw [foldl_allRanks_one r (fun q hq => waitsOn_of_not_claims (hothers q hq)) fun q hq =>
      waitsOn_of_not_claims (by rw [yieldRank_rank_other hq]; exact hothers q hq), if_pos hwaits] at hexec
    obtain ⟨-, -, hnone⟩ := answer_spec (yieldRank r (s.heardFrom st)) n
    have hanswer : (yieldRank r (s.heardFrom st)).answer n = none := by
      refine hnone (fun ⟨u, v, hv, hs, hn⟩ => hsilent u v (yieldRank_sounding (s := s.heardFrom st) hv hs) hs hn) fun ⟨q, hwindow, hclaims⟩ => ?_
      by_cases hqr : q = r
      · rw [hqr] at hwindow
        exact yieldRank_not_window (k := k) (s := s.heardFrom st) hclaim hwindow
      · rw [yieldRank_rank_other hqr, hrank, hothers q hqr] at hclaims
        cases hclaims
    rw [answered_of_none hanswer] at hexec
    refine ⟨_, hexec, rfl, fun y hy hheld => yieldRank_held (s := s.heardFrom st) hy hheld, fun q hq => yieldRank_rank_other hq _, ?_,
      fun lead hlead hslot hshort => ?_⟩
    · rw [yieldRank_map]
      rfl
    · obtain ⟨hexhausted, hnoclaim, hfree, hrefused, -, hqueue⟩ := yieldRank_of_short (s := s.heardFrom st) hclaim hlead hslot hshort
      exact ⟨hexhausted, hnoclaim, hfree, hrefused, hqueue⟩

/-! ### PEER_HELD -/

/-- The rank a HELD names is the first that holds its claim in a stage that can yield (R110). -/
theorem heldRank_of_none {s : State} {number : Byte} {n : Nat} (h : ∀ r : Fin 3, (s.rank r).claim = some { number := number, note := n } →
    (s.rank r).stage ∉ [Stage.window, .localPending, .sounding]) : s.heldRank number n = none := by
  unfold State.heldRank
  rw [List.find?_eq_none]
  intro r _ hr
  simp only [Bool.and_eq_true, decide_eq_true_eq, Rank.inStage] at hr
  exact h r hr.1 hr.2

theorem heldRank_of_first {s : State} {number : Byte} {n : Nat} {r : Fin 3}
    (hclaim : (s.rank r).claim = some { number := number, note := n })
    (hstage : (s.rank r).stage ∈ [Stage.window, .localPending, .sounding])
    (hfirst : ∀ q : Fin 3, q < r → (s.rank q).claim ≠ some { number := number, note := n }) : s.heldRank number n = some r := by
  refine find_allRanks _ r ?_ fun q hq => ?_
  · simp only [Bool.and_eq_true, decide_eq_true_eq, Rank.inStage]
    exact ⟨hclaim, hstage⟩
  · simp only [Bool.and_eq_false_imp, decide_eq_true_eq]
    exact fun h => absurd h (hfirst q hq)

theorem exec_peerHeld {s : State} {frame : List Byte} {st addressed : Fin 8} {number : Byte} {n : Nat} {reason : HeldReason}
    (hr : s.Running) (hq : s.Quiet) (hline : s.line.state ≠ .disabled)
    (hv : verdict frame = .good { station := st, payload := .held addressed number n reason }) (hst : st ≠ s.power.station) :
    exec (.peerHeld frame) s = .next
      (if addressed = s.power.station then (s.heldRank number n).elim (s.heardFrom st) fun r => yieldRank r (s.heardFrom st)
        else s.heardFrom st) := by
  have hexec : exec (.peerHeld frame) s = .next (peerHeld frame s) := exec_quiet rfl hr hq
  have hheld : (refreshStation st (frameOver s)).heldRank number n = s.heldRank number n := rfl
  rw [hexec]
  simp only [peerHeld, peerFrame_eq_some.2 ⟨hv, hline, hst⟩, hheld]
  refine congrArg Host.Outcome.next (if_congr Iff.rfl ?_ rfl)
  cases s.heldRank number n <;> rfl

/-- Settles O40: the search for the rank the HELD names, and its yield. -/
theorem peerHeldYieldsMatchingRank : Obligations.PeerHeldYieldsMatchingRank := by
  intro s frame st addressed number n reason hr hq hline hv hst
  refine ⟨_, s.heardFrom st, exec_peerHeld hr hq hline hv hst, rfl, ?_, fun h => ?_, fun r haddressed hclaim hstage hfirst => ?_⟩
  · split
    · cases s.heldRank number n with
      | none => rfl
      | some r => exact yieldRank_map r _
    · rfl
  · split
    · next haddressed =>
      rw [heldRank_of_none (h.resolve_left (absurd haddressed))]
      rfl
    · rfl
  · rw [if_pos haddressed, heldRank_of_first hclaim hstage hfirst]
    refine ⟨rfl, fun lead hlead hslot hshort => ?_⟩
    obtain ⟨hexhausted, hnoclaim, -, hrefused, hvoice, -⟩ := yieldRank_of_short (s := s.heardFrom st) hclaim hlead hslot hshort
    exact ⟨hexhausted, hnoclaim, hrefused, hvoice⟩

end Sys2Proof.Machine

/-!
The tests on a received frame, and frames that fail them (R142, R143, R154, R194, R195). O34.
-/

namespace Sys2Proof.Machine

/-! ### The tests -/

/-- The lengths a kind does not allow (R142, spec 11.2). -/
theorem allowedLength_iff (kind length : Nat) : allowedLength kind length = some false ↔
    (kind = 1 ∧ length ≠ 3) ∨ (kind = 2 ∧ length ≠ 1) ∨ (kind = 3 ∧ length ≠ 4) ∨ (kind = 4 ∧ length ≠ 2) ∨
      (kind = 5 ∧ ∀ c ≤ 8, length ≠ 1 + 3 * c) := by
  have hroster : (¬ (1 ≤ length ∧ (length - 1) % 3 = 0 ∧ length ≤ 25)) ↔ ∀ c ≤ 8, length ≠ 1 + 3 * c := by
    refine ⟨fun h c hc hl => h (by omega), fun h hl => h ((length - 1) / 3) (by omega) (by omega)⟩
  unfold allowedLength
  split
  · simp
  · simp
  · simp
  · simp
  · rw [Option.some.injEq, decide_eq_false_iff_not, hroster]
    simp
  · next h1 h2 h3 h4 h5 =>
    refine ⟨nofun, ?_⟩
    rintro (⟨h, -⟩ | ⟨h, -⟩ | ⟨h, -⟩ | ⟨h, -⟩ | ⟨h, -⟩)
    exacts [(h1 h).elim, (h2 h).elim, (h3 h).elim, (h4 h).elim, (h5 h).elim]

/-- The verdict on a frame of the length its length byte names: the tests in their order (R143, R195). -/
theorem verdict_eq {h l c0 c1 : Byte} {payload : List Byte} (hl : payload.length = l.toNat) :
    verdict (h :: l :: payload ++ [c0, c1]) =
      if allowedLength (h.toNat % 8) l.toNat = some false ∨ [c0, c1] ≠ crcBytes (h :: l :: payload) then .discard
      else (readPayload (h.toNat % 8) payload).elim .discard fun p =>
        if h.toNat / 64 = p.cls then .good { station := ⟨h.toNat / 8 % 8, Nat.mod_lt _ (by decide)⟩, payload := p }
        else .discard := by
  have hlength : ¬ (payload ++ [c0, c1]).length ≠ l.toNat + 2 := by simp [hl]
  have htake : (payload ++ [c0, c1]).take l.toNat = payload := List.take_left' hl
  have hcrc : crcGood (h :: l :: payload ++ [c0, c1]) = true ↔ [c0, c1] = crcBytes (h :: l :: payload) := crcGood_append rfl
  have hverdict : verdict (h :: l :: payload ++ [c0, c1]) =
      if allowedLength (h.toNat % 8) l.toNat = some false then .discard
      else if (payload ++ [c0, c1]).length ≠ l.toNat + 2 then .incomplete
      else if !crcGood (h :: l :: payload ++ [c0, c1]) then .discard
      else (readPayload (h.toNat % 8) ((payload ++ [c0, c1]).take l.toNat)).elim .discard fun p =>
        if h.toNat / 64 = p.cls then .good { station := ⟨h.toNat / 8 % 8, Nat.mod_lt _ (by decide)⟩, payload := p }
        else .discard := by
    refine if_congr Iff.rfl rfl (if_congr Iff.rfl rfl (if_congr Iff.rfl rfl ?_))
    show (match readPayload (h.toNat % 8) ((payload ++ [c0, c1]).take l.toNat) with | none => _ | some p => _) = _
    cases readPayload (h.toNat % 8) ((payload ++ [c0, c1]).take l.toNat) <;> rfl
  rw [hverdict, if_neg hlength, htake]
  by_cases ha : allowedLength (h.toNat % 8) l.toNat = some false
  · rw [if_pos ha, if_pos (.inl ha)]
  · rw [if_neg ha]
    by_cases hc : [c0, c1] = crcBytes (h :: l :: payload)
    · rw [hcrc.2 hc, if_neg (by decide), if_neg fun h => h.elim ha fun hn => hn hc]
    · rw [if_pos (by simpa using mt hcrc.1 hc), if_pos (.inr hc)]

/-- A byte of a list, where there is one, is at most a limit. -/
def Bounded (bytes : List Byte) (i limit : Nat) : Prop := ∀ b, bytes[i]? = some b → b.toNat ≤ limit

theorem bounded_of_readEighth {b : Byte} {x : Fin 8} (h : readEighth b = some x) : b.toNat ≤ 7 := by
  unfold readEighth at h
  split at h
  · omega
  · cases h

theorem bounded_of_readNote {b : Byte} {n : Nat} (h : readNote b = some n) : b.toNat ≤ 127 := by
  unfold readNote at h
  split at h
  · assumption
  · cases h

theorem bounded_of_readReason {b : Byte} {r : HeldReason} (h : readReason b = some r) : b.toNat ≤ 1 := by
  unfold readReason at h
  split at h
  · omega
  · omega
  · cases h

/-- Every tag and every note of a ROSTER that is read is in range (R195). -/
theorem bounded_of_readRosterEntries {bytes : List Byte} {es : List RosterEntry} (h : readRosterEntries bytes = some es) (i : Nat) :
    Bounded bytes (3 * i) 7 ∧ Bounded bytes (1 + 3 * i) 127 := by
  induction bytes using readRosterEntries.induct generalizing es i with
  | case1 => exact ⟨nofun, nofun⟩
  | case2 t n rc rest ih =>
    simp only [readRosterEntries, Option.bind_eq_bind, Option.bind_eq_some_iff] at h
    obtain ⟨tag, htag, note, hnote, more, hmore, -⟩ := h
    cases i with
    | zero =>
      refine ⟨fun b hb => ?_, fun b hb => ?_⟩
      · obtain rfl := Option.some.inj hb
        exact bounded_of_readEighth htag
      · obtain rfl := Option.some.inj hb
        exact bounded_of_readNote hnote
    | succ i =>
      obtain ⟨htags, hnotes⟩ := ih hmore i
      refine ⟨fun b hb => htags b ?_, fun b hb => hnotes b ?_⟩
      · rwa [show 3 * (i + 1) = 3 * i + 3 by omega] at hb
      · rwa [show 1 + 3 * (i + 1) = (1 + 3 * i) + 3 by omega] at hb
  | case3 => simp [readRosterEntries] at h

/-- What a payload that is read holds: the length, the class and the ranges of its kind (R143, R195). -/
theorem readPayload_spec {kind : Nat} {bytes : List Byte} {p : Payload} (h : readPayload kind bytes = some p) :
    (kind = 1 ∧ bytes.length = 3 ∧ p.cls = 0 ∧ Bounded bytes 0 7 ∧ Bounded bytes 1 127) ∨
    (kind = 2 ∧ bytes.length = 1 ∧ p.cls = 0 ∧ Bounded bytes 0 7) ∨
    (kind = 3 ∧ bytes.length = 4 ∧ p.cls = 1 ∧ Bounded bytes 0 7 ∧ Bounded bytes 2 127 ∧ Bounded bytes 3 1) ∨
    (kind = 4 ∧ bytes.length = 2 ∧ p.cls = 2 ∧ Bounded bytes 1 127) ∨
    (kind = 5 ∧ p.cls = 3 ∧ (∃ c ∈ bytes.head?, c.toNat ≤ 8 ∧ bytes.length = 1 + 3 * c.toNat) ∧
      ∀ i, Bounded bytes (1 + 3 * i) 7 ∧ Bounded bytes (2 + 3 * i) 127) := by
  have hat : ∀ {b x : Byte} {limit : Nat}, b.toNat ≤ limit → some b = some x → x.toNat ≤ limit := fun hb hx => Option.some.inj hx ▸ hb
  unfold readPayload at h
  split at h
  · simp only [Option.bind_eq_bind, Option.bind_eq_some_iff, Option.pure_def, Option.some.injEq] at h
    obtain ⟨_, htag, _, hnote, rfl⟩ := h
    exact .inl ⟨rfl, rfl, rfl, fun b => hat (bounded_of_readEighth htag), fun b => hat (bounded_of_readNote hnote)⟩
  · simp only [Option.bind_eq_bind, Option.bind_eq_some_iff, Option.pure_def, Option.some.injEq] at h
    obtain ⟨_, htag, rfl⟩ := h
    exact .inr (.inl ⟨rfl, rfl, rfl, fun b => hat (bounded_of_readEighth htag)⟩)
  · simp only [Option.bind_eq_bind, Option.bind_eq_some_iff, Option.pure_def, Option.some.injEq] at h
    obtain ⟨_, hst, _, hnote, _, hreason, rfl⟩ := h
    exact .inr (.inr (.inl ⟨rfl, rfl, rfl, fun b => hat (bounded_of_readEighth hst), fun b => hat (bounded_of_readNote hnote),
      fun b => hat (bounded_of_readReason hreason)⟩))
  · simp only [Option.bind_eq_bind, Option.bind_eq_some_iff, Option.pure_def, Option.some.injEq] at h
    obtain ⟨_, hnote, rfl⟩ := h
    exact .inr (.inr (.inr (.inl ⟨rfl, rfl, rfl, fun b => hat (bounded_of_readNote hnote)⟩)))
  · next c rest =>
    split at h
    · next hc =>
      simp only [Option.bind_eq_bind, Option.bind_eq_some_iff, Option.pure_def, Option.some.injEq] at h
      obtain ⟨es, hes, rfl⟩ := h
      refine .inr (.inr (.inr (.inr ⟨rfl, rfl, ⟨c, rfl, hc.1, ?_⟩, fun i => ?_⟩)))
      · rw [List.length_cons, hc.2, Nat.add_comm]
      · obtain ⟨htags, hnotes⟩ := bounded_of_readRosterEntries hes i
        refine ⟨fun b hb => htags b ?_, fun b hb => hnotes b ?_⟩
        · rwa [Nat.add_comm, List.getElem?_cons_succ] at hb
        · rwa [show 2 + 3 * i = (1 + 3 * i) + 1 by omega, List.getElem?_cons_succ] at hb
    · cases h
  · cases h

/-! ### Frames that fail -/

theorem stopsAtLength_iff {frame : List Byte} : stopsAtLength frame = true ↔
    ∃ h l rest, frame = h :: l :: rest ∧ allowedLength (h.toNat % 8) l.toNat = some false := by
  unfold stopsAtLength
  split
  · next h l rest =>
    simp
  · next hno =>
    refine ⟨nofun, fun ⟨h, l, rest, hf, _⟩ => absurd hf (hno h l rest)⟩

/-- A command of the line that a DISABLED line, or one in reset, does not take. -/
theorem exec_of_disabled {s : State} {c : Instr} (hq : s.Quiet) (hc : c.ofReset = false) (h : ¬ s.Meets c) : exec c s = .next s := by
  cases hr : s.power.resetHeld with
  | true => exact exec_held hc hr
  | false => rw [exec_quiet hc hr hq, effect_of_not_meets h]

/-- Settles O34: the counting of the two commands, and the tests of a verdict one by one. -/
theorem badFramesAreCountedOnly : Obligations.BadFramesAreCountedOnly := by
  refine ⟨fun s bits hr hq hline hbroken => ?_, fun s frame hr hq hline hdiscard => ?_, fun s frame bits hq hline => ?_,
    allowedLength_iff, fun h l c0 c1 payload hl => ?_, fun frame f hf => ?_⟩
  · have hexec : exec (.lineFrameBroken bits) s = .next (lineFrameBroken bits s) := exec_quiet rfl hr hq
    rw [hexec, lineFrameBroken, if_pos ⟨decide_eq_true hline, hbroken⟩]
    refine ⟨fun h => ?_, fun h => ?_⟩
    · rw [h]
      rfl
    · rw [h]
      rfl
  · intro stopped
    have hexec : exec (.frameDiscarded frame) s = .next (frameDiscarded frame s) := exec_quiet rfl hr hq
    rw [hexec, frameDiscarded, if_pos ⟨decide_eq_true hline, hdiscard⟩]
    refine ⟨fun h hs => ?_, fun h => ?_⟩
    · rw [if_pos ⟨h, stopsAtLength_iff.2 hs⟩]
      rfl
    · rw [if_neg fun ⟨ha, hs⟩ => h.elim (fun hn => by rw [ha] at hn; cases hn) fun hn => hn (stopsAtLength_iff.1 hs)]
      rfl
  · have hdeaf : ∀ k, ¬ s.Hears frame k := fun k ⟨_, _, hn, _⟩ => hn hline
    exact ⟨exec_of_disabled hq rfl fun ⟨hn, _⟩ => hn hline, exec_of_disabled hq rfl fun ⟨hn, _⟩ => hn hline,
      exec_of_disabled hq rfl fun ⟨_, _, hn, _⟩ => hn hline, exec_of_disabled hq rfl (hdeaf 1), exec_of_disabled hq rfl (hdeaf 2),
      exec_of_disabled hq rfl (hdeaf 5), exec_of_disabled hq rfl (hdeaf 4), exec_of_disabled hq rfl (hdeaf 3)⟩
  · intro beyond hbad
    rw [verdict_eq hl]
    split
    · rfl
    · next hpassed =>
      obtain ⟨-, hcrc⟩ := not_or.1 hpassed
      cases hread : readPayload (h.toNat % 8) payload with
      | none => rfl
      | some p =>
        refine if_neg fun hclass => ?_
        have hb : ∀ {i limit}, Bounded payload i limit → ¬ beyond i limit := fun hbounded ⟨b, hb, hlt⟩ =>
          Nat.not_lt_of_le (hbounded b hb) hlt
        have hkinds := readPayload_spec hread
        rw [← hclass, hl] at hkinds
        obtain hbad | hbad | hbad := hbad
        · exact hcrc hbad
        · obtain ⟨hk, -⟩ | ⟨hk, -⟩ | ⟨hk, -⟩ | ⟨hk, -⟩ | ⟨hk, -⟩ := hkinds <;> simp [hk] at hbad
        · obtain ⟨hk, hlen, hcls, h0, h1⟩ | ⟨hk, hlen, hcls, h0⟩ | ⟨hk, hlen, hcls, h0, h2, h3⟩ | ⟨hk, hlen, hcls, h1⟩ |
            ⟨hk, hcls, ⟨c, hc, hcount, hlen⟩, hall⟩ := hkinds
          · obtain ⟨-, h | h | h | h⟩ | ⟨h, -⟩ | ⟨h, -⟩ | ⟨h, -⟩ | ⟨h, -⟩ := hbad
            exacts [h hlen, h hcls, hb h0 h, hb h1 h, by omega, by omega, by omega, by omega]
          · obtain ⟨h, -⟩ | ⟨-, h | h | h⟩ | ⟨h, -⟩ | ⟨h, -⟩ | ⟨h, -⟩ := hbad
            exacts [by omega, h hlen, h hcls, hb h0 h, by omega, by omega, by omega]
          · obtain ⟨h, -⟩ | ⟨h, -⟩ | ⟨-, h | h | h | h | h⟩ | ⟨h, -⟩ | ⟨h, -⟩ := hbad
            exacts [by omega, by omega, h hlen, h hcls, hb h0 h, hb h2 h, hb h3 h, by omega, by omega]
          · obtain ⟨h, -⟩ | ⟨h, -⟩ | ⟨h, -⟩ | ⟨-, h | h | h⟩ | ⟨h, -⟩ := hbad
            exacts [by omega, by omega, by omega, h hlen, h hcls, hb h1 h, by omega]
          · obtain ⟨h, -⟩ | ⟨h, -⟩ | ⟨h, -⟩ | ⟨h, -⟩ | ⟨-, h | h | ⟨i, h | h⟩⟩ := hbad
            exacts [by omega, by omega, by omega, by omega, h hcls,
              (h c hc).elim (Nat.not_lt_of_le hcount) fun hn => hn hlen, hb (hall i).1 h, hb (hall i).2 h]
  · have hrange := inRange_of_verdict_good hf
    cases hp : f.payload <;> rw [hp] at hrange <;> exact hrange

end Sys2Proof.Machine

/-!
What a station sends, a station reads (R142, R143, R194 to R196, spec 11.2). O52.
-/

namespace Sys2Proof.Machine

/-! ### The bytes of a frame -/

theorem ofNat_toNat {n : Nat} (h : n < 256) : (BitVec.ofNat 8 n).toNat = n := by
  rw [BitVec.toNat_ofNat]
  exact Nat.mod_eq_of_lt h

theorem readEighth_ofNat (x : Fin 8) : readEighth (BitVec.ofNat 8 x.val) = some x := by
  have hx : (BitVec.ofNat 8 x.val).toNat = x.val := ofNat_toNat (Nat.lt_trans x.isLt (by decide))
  unfold readEighth
  rw [dif_pos (by rw [hx]; exact x.isLt)]
  exact congrArg some (Fin.ext hx)

theorem readNote_ofNat {n : Nat} (h : n ≤ 127) : readNote (BitVec.ofNat 8 n) = some n := by
  have hn : (BitVec.ofNat 8 n).toNat = n := ofNat_toNat (by omega)
  unfold readNote
  rw [hn, if_pos h]

theorem read_roleClassByte (role : LineRole) {c : Nat} (h : c ≤ 3) :
    readRole (roleClassByte role c) = role ∧ readClass (roleClassByte role c) = c := by
  unfold readRole readClass roleClassByte
  cases role with
  | lead =>
    dsimp only
    rw [ofNat_toNat (by omega), if_neg (by omega)]
    exact ⟨rfl, by omega⟩
  | harmony =>
    dsimp only
    rw [ofNat_toNat (by omega), if_pos (by omega)]
    exact ⟨rfl, by omega⟩

theorem readReason_reasonByte (r : HeldReason) : readReason (reasonByte r) = some r := by cases r <;> rfl

theorem readRosterEntries_bytes {es : List RosterEntry} (h : ∀ e ∈ es, e.note ≤ 127 ∧ e.levelClass ≤ 3) :
    readRosterEntries (es.flatMap rosterEntryBytes) = some es := by
  induction es with
  | nil => rfl
  | cons e es ih =>
    obtain ⟨hnote, hclass⟩ := h e List.mem_cons_self
    obtain ⟨hrole, hlevel⟩ := read_roleClassByte e.role hclass
    have hrest := ih fun x hx => h x (List.mem_cons_of_mem e hx)
    simp [rosterEntryBytes, readRosterEntries, readEighth_ofNat, readNote_ofNat hnote, hrest, hrole, hlevel]

theorem flatMap_rosterEntryBytes_length (es : List RosterEntry) : (es.flatMap rosterEntryBytes).length = 3 * es.length := by
  simp [List.length_flatMap, rosterEntryBytes, Nat.mul_comm]

/-- A payload is short enough for its length byte, of a length its kind allows, and read back as what it was (R195). -/
theorem payload_bytes {p : Payload} (h : p.InRange) : p.bytes.length ≤ 25 ∧ allowedLength p.kind p.bytes.length ≠ some false ∧
    readPayload p.kind p.bytes = some p := by
  cases p with
  | noteStart tag note role c =>
    obtain ⟨hnote, hclass⟩ := h
    obtain ⟨hrole, hlevel⟩ := read_roleClassByte role hclass
    refine ⟨by simp [Payload.bytes], by simp [Payload.bytes, Payload.kind, allowedLength], ?_⟩
    simp [Payload.bytes, Payload.kind, readPayload, readEighth_ofNat, readNote_ofNat hnote, hrole, hlevel]
  | noteEnd tag =>
    refine ⟨by simp [Payload.bytes], by simp [Payload.bytes, Payload.kind, allowedLength], ?_⟩
    simp [Payload.bytes, Payload.kind, readPayload, readEighth_ofNat]
  | held st k note r =>
    refine ⟨by simp [Payload.bytes], by simp [Payload.bytes, Payload.kind, allowedLength], ?_⟩
    simp [Payload.bytes, Payload.kind, readPayload, readEighth_ofNat, readNote_ofNat h, readReason_reasonByte]
  | claim k note =>
    refine ⟨by simp [Payload.bytes], by simp [Payload.bytes, Payload.kind, allowedLength], ?_⟩
    simp [Payload.bytes, Payload.kind, readPayload, readNote_ofNat (show note ≤ 127 from h)]
  | roster es =>
    obtain ⟨hcount, hentries⟩ := h
    have hbytes : (Payload.roster es).bytes.length = 1 + 3 * es.length := by
      rw [Payload.bytes, List.length_cons, flatMap_rosterEntryBytes_length, Nat.add_comm]
    refine ⟨by omega, ?_, ?_⟩
    · rw [Ne, allowedLength_iff, hbytes]
      rintro (⟨hk, -⟩ | ⟨hk, -⟩ | ⟨hk, -⟩ | ⟨hk, -⟩ | ⟨-, hlen⟩)
      iterate 4 cases hk
      exact hlen es.length hcount rfl
    · have hsize : (BitVec.ofNat 8 es.length).toNat = es.length := ofNat_toNat (by omega)
      show (if (BitVec.ofNat 8 es.length).toNat ≤ 8 ∧ (es.flatMap rosterEntryBytes).length = 3 * (BitVec.ofNat 8 es.length).toNat then
        (readRosterEntries (es.flatMap rosterEntryBytes)).bind fun es => some (Payload.roster es) else none) = _
      rw [hsize, if_pos ⟨hcount, flatMap_rosterEntryBytes_length es⟩, readRosterEntries_bytes hentries]
      rfl

/-- The fields of a header byte (spec 11.2). -/
theorem headerByte_fields (st : Fin 8) (p : Payload) :
    (headerByte st p).toNat % 8 = p.kind ∧ (headerByte st p).toNat / 64 = p.cls ∧ (headerByte st p).toNat / 8 % 8 = st.val := by
  have hkind : p.kind ≤ 5 := by cases p <;> simp [Payload.kind]
  rw [headerByte_toNat]
  omega

theorem crcBytes_eq (bytes : List Byte) : ∃ c0 c1, crcBytes bytes = [c0, c1] := ⟨_, _, rfl⟩

/-- The bytes of a frame are a good frame with just those contents (R143, R195). -/
theorem verdict_bytes {f : LineFrame} (h : f.payload.InRange) : verdict f.bytes = .good f := by
  obtain ⟨st, p⟩ := f
  obtain ⟨hlen, hallowed, hread⟩ := payload_bytes (p := p) h
  obtain ⟨hkind, hclass, hstation⟩ := headerByte_fields st p
  obtain ⟨c0, c1, hcrc⟩ := crcBytes_eq (LineFrame.covered { station := st, payload := p })
  have hlength : (BitVec.ofNat 8 p.bytes.length).toNat = p.bytes.length := ofNat_toNat (by omega)
  have hbytes : LineFrame.bytes { station := st, payload := p } =
      headerByte st p :: BitVec.ofNat 8 p.bytes.length :: p.bytes ++ [c0, c1] := congrArg (_ ++ ·) hcrc
  have hcovered : [c0, c1] = crcBytes (headerByte st p :: BitVec.ofNat 8 p.bytes.length :: p.bytes) := hcrc.symm
  rw [hbytes, verdict_eq hlength.symm, hkind, hlength, hread, if_neg fun h => h.elim hallowed fun hn => hn hcovered]
  refine (if_pos hclass).trans ?_
  exact congrArg (fun x => Verdict.good { station := x, payload := p }) (Fin.ext hstation)

/-! ### The bits of a frame -/

/-- A number below 256 is the sum of its bits. -/
theorem sum_of_bits {x : Nat} (hx : x < 256) : 128 * (x / 2 ^ 7 % 2) + 64 * (x / 2 ^ 6 % 2) + 32 * (x / 2 ^ 5 % 2) +
    16 * (x / 2 ^ 4 % 2) + 8 * (x / 2 ^ 3 % 2) + 4 * (x / 2 ^ 2 % 2) + 2 * (x / 2 ^ 1 % 2) + x / 2 ^ 0 % 2 = x := by
  have h : ∀ i, x / 2 ^ i = 2 * (x / 2 ^ (i + 1)) + x / 2 ^ i % 2 := fun i => by
    rw [pow_succ, ← Nat.div_div_eq_div_mul]
    omega
  have hzero : x / 2 ^ 0 = x := Nat.div_one x
  have htop : x / 2 ^ (7 + 1) = 0 := Nat.div_eq_of_lt hx
  linarith [h 0, h 1, h 2, h 3, h 4, h 5, h 6, h 7]

/-- A byte is what its bits say (R194). -/
theorem byteOfBits_getLsbD (b : Byte) : byteOfBits (b.getLsbD 7) (b.getLsbD 6) (b.getLsbD 5) (b.getLsbD 4) (b.getLsbD 3)
    (b.getLsbD 2) (b.getLsbD 1) (b.getLsbD 0) = b := by
  have hbit : ∀ i, (b.getLsbD i).toNat = b.toNat / 2 ^ i % 2 := fun i => Nat.toNat_testBit _ _
  apply BitVec.eq_of_toNat_eq
  rw [byteOfBits, BitVec.toNat_ofNat]
  simp only [hbit]
  rw [sum_of_bits b.isLt, Nat.mod_eq_of_lt b.isLt]

theorem takeByte_bitsOf (b : Byte) (rest : List Bool) : takeByte (bitsOf b ++ rest) = some (b, rest) :=
  congrArg (fun x => some (x, rest)) (byteOfBits_getLsbD b)

theorem takeSeparated_bitsOf (b : Byte) (rest : List Bool) : takeSeparated (bitsOf b ++ false :: rest) = some (b, rest) := by
  unfold takeSeparated
  rw [takeByte_bitsOf]

/-- The bytes of a line, with their separators, are read back one by one (R194). -/
theorem takeBytes_lineBits (b : Byte) (bytes : List Byte) : takeBytes bytes.length (lineBits (b :: bytes)) = some (b :: bytes) := by
  induction bytes generalizing b with
  | nil =>
    have htake : takeByte (lineBits [b]) = some (b, []) := takeByte_bitsOf b []
    simp only [List.length_nil, takeBytes, htake]
  | cons c bytes ih =>
    have hbits : lineBits (b :: c :: bytes) = bitsOf b ++ false :: lineBits (c :: bytes) := rfl
    simp only [List.length_cons, takeBytes, hbits, takeSeparated_bitsOf, ih]

/-- A frame of the length its length byte names is read back byte for byte (R142, R194). -/
theorem readBits_lineBits {h l : Byte} {rest : List Byte} (hallowed : allowedLength (h.toNat % 8) l.toNat ≠ some false)
    (hlen : rest.length = l.toNat + 2) : readBits (lineBits (h :: l :: rest)) = .complete (h :: l :: rest) := by
  obtain ⟨c, tail, rfl⟩ : ∃ c tail, rest = c :: tail := List.exists_cons_of_length_pos (by omega)
  have hbits : lineBits (h :: l :: c :: tail) = bitsOf h ++ false :: (bitsOf l ++ false :: lineBits (c :: tail)) := rfl
  have htail : l.toNat + 1 = tail.length := by simpa using hlen.symm
  simp only [readBits, hbits, takeSeparated_bitsOf, takeByte_bitsOf, if_neg hallowed, htail, takeBytes_lineBits]

/-- The bits of a frame are its bytes, each behind a 0 (R194). -/
theorem cons_lineBits (b : Byte) (bytes : List Byte) :
    false :: lineBits (b :: bytes) = (b :: bytes).flatMap fun x => false :: bitsOf x := by
  induction bytes generalizing b with
  | nil => rfl
  | cons c bytes ih =>
    rw [List.flatMap_cons, ← ih]
    rfl

theorem flatMap_bits_length (bytes : List Byte) : (bytes.flatMap fun x => false :: bitsOf x).length = 9 * bytes.length := by
  simp [List.length_flatMap, bitsOf, Nat.mul_comm]

/-- Every ninth bit is a 0 (R194). -/
theorem getElem?_bits (bytes : List Byte) (i : Nat) (h : i < bytes.length) :
    (bytes.flatMap fun x => false :: bitsOf x)[9 * i]? = some false := by
  induction bytes generalizing i with
  | nil => cases h
  | cons b bytes ih =>
    rw [List.flatMap_cons]
    cases i with
    | zero => rfl
    | succ i =>
      have hlen : (false :: bitsOf b).length = 9 := rfl
      rw [List.getElem?_append_right (by omega), hlen, show 9 * (i + 1) - 9 = 9 * i by omega]
      exact ih i (by simpa using h)

/-- No nine bits in a row are all 1 (R194). -/
theorem false_mem_of_run {bytes : List Byte} {before run after : List Bool}
    (h : (bytes.flatMap fun x => false :: bitsOf x) = before ++ run ++ after) (hrun : run.length = 9) : false ∈ run := by
  have hlength := congrArg List.length h
  rw [flatMap_bits_length, List.length_append, List.length_append, hrun] at hlength
  have hbit := getElem?_bits bytes ((before.length + 8) / 9) (by omega)
  rw [h, List.append_assoc, List.getElem?_append_right (by omega), List.getElem?_append_left (by omega)] at hbit
  exact List.mem_of_getElem? hbit

/-- Settles O52: the bytes pass the tests of a verdict, and the bits are the bytes, each behind a 0. -/
theorem sentFrameIsReadBack : Obligations.SentFrameIsReadBack := by
  intro f hrange
  have h : f.payload.InRange := by
    cases hp : f.payload <;> rw [hp] at hrange <;> exact hrange
  obtain ⟨hlen, hallowed, -⟩ := payload_bytes h
  obtain ⟨hkind, -, -⟩ := headerByte_fields f.station f.payload
  have hlength : (BitVec.ofNat 8 f.payload.bytes.length).toNat = f.payload.bytes.length := ofNat_toNat (by omega)
  have hbytes : f.bytes = headerByte f.station f.payload :: BitVec.ofNat 8 f.payload.bytes.length ::
      (f.payload.bytes ++ crcBytes f.covered) := rfl
  have hbits : f.bits = f.bytes.flatMap fun x => false :: bitsOf x := cons_lineBits _ _
  refine ⟨verdict_bytes h, rfl, ?_, ?_, fun before run after hsplit hrun => ?_⟩
  · show readBits (lineBits f.bytes) = _
    rw [hbytes]
    refine readBits_lineBits ?_ ?_
    · rw [hkind, hlength]
      exact hallowed
    · rw [List.length_append, hlength]
      rfl
  · rw [hbits, flatMap_bits_length]
  · exact false_mem_of_run (hbits.symm.trans hsplit) hrun

end Sys2Proof.Machine

/-!
What has come due is completed (assumption 1): the steps of a frame and the steps of a boundary leave nothing of theirs due. First part of
O2.
-/

namespace Sys2Proof.Machine

/-- A fold over a list brings about for each of its members what the member's step brings about and every step keeps. -/
theorem foldl_establishes {α β : Type} {law : α → β → Prop} {f : β → α → β} (hf : ∀ s a, law a (f s a))
    (hkeep : ∀ s a b, law a s → law a (f s b)) (l : List α) {s : β} {a : α} (ha : a ∈ l) : law a (l.foldl f s) := by
  induction l generalizing s with
  | nil => cases ha
  | cons b l ih =>
    by_cases hl : a ∈ l
    · exact ih hl
    · obtain rfl : a = b := (List.mem_cons.1 ha).resolve_right hl
      exact foldl_keeps (fun s b h => hkeep s a b h) l (hf s a)

/-! ### The steps of a frame -/

section
variable {s t : State}

/-- What the steps of a frame are read from (R24, R31, R43). -/
structure SameFrame (s t : State) : Prop where
  image : t.loader.image = s.loader.image
  detectors : t.detectors = s.detectors
  breath : t.breath = s.breath

theorem SameFrame.refl (s : State) : SameFrame s s := ⟨rfl, rfl, rfl⟩

theorem SameFrame.trans {u : State} (h : SameFrame s t) (k : SameFrame t u) : SameFrame s u :=
  ⟨k.image.trans h.image, k.detectors.trans h.detectors, k.breath.trans h.breath⟩

theorem VoiceWork.sameFrame (h : VoiceWork s t) : SameFrame s t := ⟨h.image, h.detectors, h.breath⟩

/-- A detector's firing is read from the image and that detector. -/
theorem firing_congr (himage : t.loader.image = s.loader.image) {d : Fin 4} (hdetector : t.detectors.get d = s.detectors.get d) :
    t.firing d = s.firing d := by
  unfold State.firing State.image?
  rw [himage, hdetector]

theorem SameFrame.frameQuiet (h : SameFrame s t) (hs : s.FrameQuiet) : t.FrameQuiet := by
  obtain ⟨hcapture, hfire, honset⟩ := hs
  refine ⟨fun hb => ?_, fun d => (firing_congr h.image (by rw [h.detectors])).trans (hfire d), fun ha => ?_⟩
  · rw [h.breath] at hb ⊢
    exact hcapture hb
  · rw [h.breath] at ha ⊢
    exact honset ha

/-- An action of a detector moves no detector and no image (R45 to R48). -/
theorem act_sameFrame (d : Fin 4) (a : Action) (s : State) : SameFrame s (act d a s) := by
  have hoctave : ∀ f, SameFrame s (shiftOctave f s) := fun f => by
    have hwork := recomputeLead_leaves { s with resolver := { s.resolver with octaveShift := f s.resolver.octaveShift } }
    exact ⟨hwork.image, hwork.detectors, hwork.breath⟩
  cases a with
  | octaveUp => exact hoctave _
  | octaveDown => exact hoctave _
  | harmonyToggle =>
    have hwork := voiceWork_changeEnables (f := fun s => { s with harmony := { s.harmony with master := !s.harmony.master } }) s
    exact ⟨hwork.image, hwork.detectors, hwork.breath⟩
  | programSwap =>
    show SameFrame s (swapPrograms s)
    unfold swapPrograms
    split
    · exact ⟨rfl, rfl, rfl⟩
    · exact .refl s
  | report => exact ⟨rfl, rfl, rfl⟩

/-- A detector that fires is unarmed, and no other is touched (R43, R44). -/
theorem firing_fireDetector (d e : Fin 4) (s : State) : (fireDetector d s).firing e = if e = d then none else s.firing e := by
  cases hd : s.firing d with
  | none =>
    have hfixed : fireDetector d s = s := by simp only [fireDetector, hd]
    rw [hfixed]
    split
    · next h => rw [h, hd]
    · rfl
  | some a =>
    have hact : fireDetector d s = act d a (s.fired d) := by simp only [fireDetector, hd]
    rw [hact]
    have hsame := act_sameFrame d a (s.fired d)
    refine (firing_congr hsame.image (congrArg (Four.get · e) hsame.detectors)).trans ?_
    split
    · next h =>
      have hunarmed : ((s.fired d).detectors.get e).armed = false := by
        rw [h]
        exact congrArg Detector.armed (Four.get_set_same _ _ _)
      unfold State.firing
      split
      · split
        · rw [hunarmed]
          rfl
        · rfl
      · rfl
    · next h =>
      have hdetector : (s.fired d).detectors.get e = s.detectors.get e := Four.get_set_ne _ h _
      exact firing_congr (s := s) (t := s.fired d) rfl hdetector

/-- After every due detector has fired none is due (R43, R44). -/
theorem firing_fireAll (s : State) (e : Fin 4) : (fireAll s).firing e = none := by
  have hall : e ∈ allDetectors := by
    revert e
    decide
  refine foldl_establishes (law := fun (e : Fin 4) (s : State) => s.firing e = none) (fun s d => ?_) (fun s e d hs => ?_) _ hall <;>
    rw [firing_fireDetector]
  · exact if_pos rfl
  · split
    · rfl
    · exact hs

theorem takeCandidate_sameFrame (c : Candidate) (s : State) : SameFrame s (takeCandidate c s) := by
  unfold takeCandidate
  split
  · exact .refl s
  · split
    · exact .refl s
    · next n _ =>
      have hwork := recomputeLead_leaves { s with resolver := { s.resolver with taken := n } }
      exact ⟨hwork.image, hwork.detectors, hwork.breath⟩

theorem captureComplete_quiet (s : State) : (captureComplete s).breath.baseline = none →
    (captureComplete s).breath.captureCount < Config.captureFrames := by
  unfold captureComplete
  cases hb : s.breath.baseline with
  | some z =>
    intro h
    cases hb.symm.trans h
  | none =>
    dsimp only
    split
    · split <;> nofun
    · next h => exact fun _ => Nat.lt_of_not_le h

theorem onsetStarted_frameQuiet (h : SameFrame s t) (hcapture : s.breath.baseline = none → s.breath.captureCount < Config.captureFrames)
    (hfire : ∀ d, s.firing d = none) :
    (leadStart { t with breath := { t.breath with articulation := .sounding, onsetEnding := false } }).FrameQuiet := by
  refine (voiceWork_leadStart _).sameFrame.frameQuiet ⟨fun hb => ?_, fun d => ?_, nofun⟩
  · replace hb : t.breath.baseline = none := hb
    show t.breath.captureCount < Config.captureFrames
    rw [h.breath] at hb ⊢
    exact hcapture hb
  · have hdetector : t.detectors.get d = s.detectors.get d := congrArg (Four.get · d) h.detectors
    exact (firing_congr (s := s) h.image hdetector).trans (hfire d)

/-- The end of an onset, where no detector is due, leaves no step of the frame due (R31, R32). -/
theorem onsetEnd_frameQuiet (hcapture : s.breath.baseline = none → s.breath.captureCount < Config.captureFrames)
    (hfire : ∀ d, s.firing d = none) : (onsetEnd s).FrameQuiet := by
  unfold onsetEnd
  by_cases honset : s.breath.articulation = .onset ∧ s.breath.onsetEnding = true
  · rw [if_pos honset, fireAll_of_none hfire]
    refine onsetStarted_frameQuiet ?_ hcapture hfire
    split
    · exact takeCandidate_sameFrame _ s
    · exact .refl s
  · rw [if_neg honset]
    exact ⟨hcapture, hfire, fun ha => by simpa [ha] using honset⟩

theorem settleFrame_frameQuiet (s : State) : (settleFrame s).FrameQuiet := by
  refine onsetEnd_frameQuiet (fun hb => ?_) (firing_fireAll _)
  rw [fireAll_breath] at hb ⊢
  exact captureComplete_quiet s hb

end

/-! ### A settled root and a lost sensor -/

section
variable (s : State)

theorem rootSettled_leaves : VoiceWork { s with pitch := (rootSettled s).pitch } (rootSettled s) := by
  unfold rootSettled
  split
  · exact voiceWork_mapVoices (State.tune { s with pitch := { s.pitch with root := s.pitch.previousRoot, settleCount := 0 } })
      { s with pitch := { s.pitch with root := s.pitch.previousRoot, settleCount := 0 } }
  · exact .refl s

theorem rootSettled_quiet : (rootSettled s).pitch.settleCount < Config.rootSettle := by
  unfold rootSettled
  split
  · exact Nat.zero_lt_succ _
  · next h => exact Nat.lt_of_not_le fun hle => h (decide_eq_true hle)

/-- A loss of the sensor leaves all but the receiver, the breath, the event and what a release moves (R20, R21, R34). -/
theorem sensorLost_leaves : VoiceWork { s with
      sensor := (sensorLost s).sensor
      breath := (sensorLost s).breath
      panel := { s.panel with events := (sensorLost s).panel.events } } (sensorLost s) := by
  unfold sensorLost
  split
  · cases himage : s.image? with
    | none =>
      have himage' : (raise .sensorLost { s with sensor := { s.sensor with receiver := .lost } }).image? = none := himage
      dsimp only
      rw [himage']
      exact .refl _
    | some img =>
      have himage' : (raise .sensorLost { s with sensor := { s.sensor with receiver := .lost } }).image? = some img := himage
      dsimp only
      rw [himage']
      by_cases ha : s.breath.articulation = .sounding
      · have hwork := voiceWork_releaseAll (s.lossSilent img)
        have hlose := loseBreath_of_sounding (img := img) ha
        dsimp only
        rw [hlose, hwork.sensor, hwork.breath, hwork.panel]
        exact hwork
      · obtain ⟨e, hlose⟩ := loseBreath_of_not_sounding (img := img) (s := s) ha
        dsimp only
        rw [hlose]
        exact .refl _
  · exact .refl s

theorem sensorLost_sensor :
    (sensorLost s).sensor = s.sensor ∧ ¬ (s.sensor.receiver = .receiving ∧ Config.lossBlocks ≤ s.sensor.missingTimer) ∨
    (sensorLost s).sensor.receiver = .lost := by
  unfold sensorLost
  split
  · right
    cases himage : s.image? with
    | none =>
      have himage' : s.senseLost.image? = none := himage
      dsimp only
      rw [himage']
      rfl
    | some img =>
      have himage' : s.senseLost.image? = some img := himage
      dsimp only
      rw [himage']
      by_cases ha : s.breath.articulation = .sounding
      · dsimp only
        rw [loseBreath_of_sounding ha, (voiceWork_releaseAll (s.lossSilent img)).sensor]
        rfl
      · obtain ⟨e, hlose⟩ := loseBreath_of_not_sounding (img := img) (s := s) ha
        dsimp only
        rw [hlose]
        rfl
  · next h => exact .inl ⟨rfl, h⟩

theorem sensorLost_quiet : (sensorLost s).sensor.receiver = .receiving → (sensorLost s).sensor.missingTimer < Config.lossBlocks := by
  obtain ⟨hsensor, hnot⟩ | hlost := sensorLost_sensor s
  · rw [hsensor]
    exact fun hrec => Nat.lt_of_not_le fun hle => hnot ⟨hrec, hle⟩
  · rw [hlost]
    nofun

/-- A loss leaves the capture as it is, and where it touches the breath no onset is left (R21, R34). -/
theorem sensorLost_breath : (sensorLost s).breath = s.breath ∨ (sensorLost s).breath.baseline = s.breath.baseline ∧
    (sensorLost s).breath.captureCount = s.breath.captureCount ∧ (sensorLost s).breath.articulation = .silent := by
  unfold sensorLost
  split
  · cases himage : s.image? with
    | none =>
      have himage' : s.senseLost.image? = none := himage
      dsimp only
      rw [himage']
      exact .inl rfl
    | some img =>
      have himage' : s.senseLost.image? = some img := himage
      have hcount : (s.breath.lost img).captureCount = s.breath.captureCount := by
        unfold Breath.lost
        split <;> rfl
      dsimp only
      rw [himage']
      right
      by_cases ha : s.breath.articulation = .sounding
      · dsimp only
        rw [loseBreath_of_sounding ha, (voiceWork_releaseAll (s.lossSilent img)).breath]
        exact ⟨(lost_spec s.breath img).1, hcount, rfl⟩
      · obtain ⟨e, hlose⟩ := loseBreath_of_not_sounding (img := img) (s := s) ha
        dsimp only
        rw [hlose]
        exact ⟨(lost_spec s.breath img).1, hcount, rfl⟩
  · exact .inl rfl

theorem sensorLost_frameQuiet (h : s.FrameQuiet) : (sensorLost s).FrameQuiet := by
  have hleaves := sensorLost_leaves s
  obtain hbreath | ⟨hbaseline, hcount, hsilent⟩ := sensorLost_breath s
  · exact SameFrame.frameQuiet (s := s) ⟨hleaves.image, hleaves.detectors, hbreath⟩ h
  · obtain ⟨hcapture, hfire, -⟩ := h
    refine ⟨by rwa [hbaseline, hcount], fun d => ?_, by rw [hsilent]; nofun⟩
    exact (firing_congr (s := s) hleaves.image (congrArg (Four.get · d) hleaves.detectors)).trans (hfire d)

end

end Sys2Proof.Machine

/-!
The steps of a boundary leave nothing of theirs due, and of the steps of a frame none (assumption 1). Second part of O2.
-/

namespace Sys2Proof.Machine

/-! ### What the later steps leave as it is -/

section
variable {s t u : State}

/-- What the steps of a frame and the first steps of a boundary are read from. -/
structure SameClocks (s t : State) : Prop extends SameFrame s t where
  settleCount : t.pitch.settleCount = s.pitch.settleCount
  sensor : t.sensor = s.sensor
  stations : t.map.stations = s.map.stations

theorem SameClocks.trans (h : SameClocks s t) (k : SameClocks t u) : SameClocks s u :=
  ⟨h.toSameFrame.trans k.toSameFrame, k.settleCount.trans h.settleCount, k.sensor.trans h.sensor, k.stations.trans h.stations⟩

theorem SameClocks.refl (s : State) : SameClocks s s := ⟨.refl s, rfl, rfl, rfl⟩

theorem VoiceWork.sameClocks (h : VoiceWork s t) : SameClocks s t :=
  ⟨h.sameFrame, congrArg Pitch.settleCount h.pitch, h.sensor, congrArg SectionMap.stations h.map⟩

/-- No root adoption, no loss of the sensor and no expiry of a station is due. -/
structure State.ClocksQuiet (s : State) : Prop where
  settle : s.pitch.settleCount < Config.rootSettle
  loss : s.sensor.receiver = .receiving → s.sensor.missingTimer < Config.lossBlocks
  expiry : ∀ st : Fin 8, (s.map.stations.get st).present = true → (s.map.stations.get st).age < Config.expiryAge

theorem SameClocks.clocksQuiet (h : SameClocks s t) (hs : s.ClocksQuiet) : t.ClocksQuiet := by
  obtain ⟨hsettle, hloss, hexpiry⟩ := hs
  exact ⟨by rwa [h.settleCount], by rwa [h.sensor], by rwa [h.stations]⟩

/-! ### The stations -/

theorem stationExpiry_leaves (st : Fin 8) (s : State) : stationExpiry st s = { s with map := (stationExpiry st s).map } := by
  unfold stationExpiry
  split <;> rfl

/-- A station that expires is absent, and no other is touched (R122). -/
theorem stationExpiry_station (st x : Fin 8) (s : State) : (stationExpiry st s).map.stations.get x =
    if x = st ∧ (s.map.stations.get st).present = true ∧ Config.expiryAge ≤ (s.map.stations.get st).age then { present := false, age := 0 }
    else s.map.stations.get x := by
  unfold stationExpiry
  by_cases hdue : (s.map.stations.get st).present = true ∧ Config.expiryAge ≤ (s.map.stations.get st).age
  · rw [if_pos hdue]
    show (s.map.stations.set st _).get x = _
    by_cases hx : x = st
    · rw [if_pos ⟨hx, hdue⟩, hx, Eight.get_set_same]
    · rw [if_neg fun h => hx h.1, Eight.get_set_ne _ hx]
  · rw [if_neg hdue, if_neg fun h => hdue h.2]

theorem expiryAll_quiet (s : State) (st : Fin 8)
    (h : ((allEight.foldl (fun s st => stationExpiry st s) s).map.stations.get st).present = true) :
    ((allEight.foldl (fun s st => stationExpiry st s) s).map.stations.get st).age < Config.expiryAge := by
  refine foldl_establishes (law := fun (st : Fin 8) (s : State) =>
    (s.map.stations.get st).present = true → (s.map.stations.get st).age < Config.expiryAge)
    (fun s st => ?_) (fun s st x hs => ?_) allEight (mem_allEight st) h
  · rw [stationExpiry_station]
    split
    · nofun
    · next hdue => exact fun hp => Nat.lt_of_not_le fun hle => hdue ⟨rfl, hp, hle⟩
  · rw [stationExpiry_station]
    split
    · nofun
    · exact hs

theorem expiryAll_leaves (s : State) : allEight.foldl (fun s st => stationExpiry st s) s =
    { s with map := (allEight.foldl (fun s st => stationExpiry st s) s).map } :=
  foldl_keeps (law := fun t : State => t = { s with map := t.map }) (fun t st ht => by
    rw [stationExpiry_leaves st t]
    exact congrArg (fun x : State => { x with map := (stationExpiry st t).map }) ht) allEight rfl

/-- After a settled root, a lost sensor and the stations none of the three is due (R20, R81, R122). -/
theorem clocksQuiet_settled (s : State) :
    (allEight.foldl (fun s st => stationExpiry st s) (sensorLost (rootSettled s))).ClocksQuiet := by
  have hleaves := expiryAll_leaves (sensorLost (rootSettled s))
  have hpitch : (sensorLost (rootSettled s)).pitch = (rootSettled s).pitch := (sensorLost_leaves (rootSettled s)).pitch
  refine ⟨?_, ?_, expiryAll_quiet _⟩
  · rw [hleaves]
    show (sensorLost (rootSettled s)).pitch.settleCount < _
    rw [hpitch]
    exact rootSettled_quiet s
  · rw [hleaves]
    exact sensorLost_quiet (rootSettled s)

theorem frameQuiet_settled (h : s.FrameQuiet) :
    (allEight.foldl (fun s st => stationExpiry st s) (sensorLost (rootSettled s))).FrameQuiet := by
  have hroot := rootSettled_leaves s
  have hquiet : (rootSettled s).FrameQuiet := SameFrame.frameQuiet (s := s) ⟨hroot.image, hroot.detectors, hroot.breath⟩ h
  rw [expiryAll_leaves]
  exact SameFrame.frameQuiet ⟨rfl, rfl, rfl⟩ (sensorLost_frameQuiet _ hquiet)

/-! ### The settings -/

/-- No waiting setting has met a boundary (R185). -/
structure State.SettingsQuiet (s : State) : Prop where
  transpose : s.panel.transposeDue = false
  tuning : s.panel.tuningDue = false
  key : s.panel.keyDue = false
  ranks : s.panel.ranksDue = false

theorem takeTranspose_spec (s : State) : SameClocks s (takeTranspose s) ∧ (takeTranspose s).panel.transposeDue = false := by
  unfold takeTranspose
  split
  · dsimp only
    cases s.panel.waitTranspose with
    | none => exact ⟨⟨⟨rfl, rfl, rfl⟩, rfl, rfl, rfl⟩, rfl⟩
    | some v =>
      dsimp only
      unfold recomputeInstalled
      split
      · have hwork := recomputeLead_leaves { s with
          resolver := { s.resolver with transpose := v }
          panel := { s.panel with waitTranspose := none, transposeDue := false } }
        exact ⟨⟨⟨hwork.image, hwork.detectors, hwork.breath⟩, congrArg Pitch.settleCount hwork.pitch, hwork.sensor,
          congrArg SectionMap.stations hwork.map⟩, congrArg Panel.transposeDue hwork.panel⟩
      · exact ⟨⟨⟨rfl, rfl, rfl⟩, rfl, rfl, rfl⟩, rfl⟩
  · next h => exact ⟨.refl s, by simpa using h⟩

theorem takeTuning_spec (s : State) : SameClocks s (takeTuning s) ∧ (takeTuning s).panel.tuningDue = false ∧
    (takeTuning s).panel.transposeDue = s.panel.transposeDue := by
  unfold takeTuning
  split
  · dsimp only
    cases s.panel.waitTuning <;> exact ⟨⟨⟨rfl, rfl, rfl⟩, rfl, rfl, rfl⟩, rfl, rfl⟩
  · next h => exact ⟨.refl s, by simpa using h, rfl⟩

theorem takeKey_spec (s : State) : SameClocks s (takeKey s) ∧ (takeKey s).panel.keyDue = false ∧
    (takeKey s).panel.transposeDue = s.panel.transposeDue ∧ (takeKey s).panel.tuningDue = s.panel.tuningDue := by
  unfold takeKey
  split
  · dsimp only
    cases s.panel.waitKey <;> exact ⟨⟨⟨rfl, rfl, rfl⟩, rfl, rfl, rfl⟩, rfl, rfl, rfl⟩
  · next h => exact ⟨.refl s, by simpa using h, rfl, rfl⟩

theorem takeRanks_spec (s : State) : SameClocks s (takeRanks s) ∧ (takeRanks s).panel.ranksDue = false ∧
    (takeRanks s).panel.transposeDue = s.panel.transposeDue ∧ (takeRanks s).panel.tuningDue = s.panel.tuningDue ∧
    (takeRanks s).panel.keyDue = s.panel.keyDue := by
  unfold takeRanks
  split
  · dsimp only
    cases s.panel.waitRanks with
    | none => exact ⟨⟨⟨rfl, rfl, rfl⟩, rfl, rfl, rfl⟩, rfl, rfl, rfl, rfl⟩
    | some set =>
      have hwork := voiceWork_changeEnables (f := fun s => { s with harmony := { s.harmony with liveRanks := set } })
        { s with panel := { s.panel with waitRanks := none, ranksDue := false } }
      have hclocks := hwork.sameClocks
      exact ⟨⟨⟨hclocks.image, hclocks.detectors, hclocks.breath⟩, hclocks.settleCount, hclocks.sensor, hclocks.stations⟩,
        by rw [hwork.panel], by rw [hwork.panel], by rw [hwork.panel], by rw [hwork.panel]⟩
  · next h => exact ⟨.refl s, by simpa using h, rfl, rfl, rfl⟩

/-- After the takings no waiting setting is due, and the clocks stand (R185). -/
theorem takeDue_spec (s : State) : SameClocks s (takeDue s) ∧ (takeDue s).SettingsQuiet := by
  obtain ⟨hs1, ht1⟩ := takeTranspose_spec s
  obtain ⟨hs2, hu2, ht2⟩ := takeTuning_spec (takeTranspose s)
  obtain ⟨hs3, hk3, ht3, hu3⟩ := takeKey_spec (takeTuning (takeTranspose s))
  obtain ⟨hs4, hr4, ht4, hu4, hk4⟩ := takeRanks_spec (takeKey (takeTuning (takeTranspose s)))
  exact ⟨((hs1.trans hs2).trans hs3).trans hs4, ht4.trans (ht3.trans (ht2.trans ht1)), hu4.trans (hu3.trans hu2), hk4.trans hk3, hr4⟩

/-! ### The ranks -/

/-- No window of the rank has run out (R107). -/
abbrev Rank.WindowQuiet (k : Rank) : Prop := k.stage = .window → k.windowAge < Config.windowAge

/-- No local resolution of the rank is due (R108). -/
abbrev Rank.LocalQuiet (k : Rank) : Prop := k.stage = .localPending → k.localDue = false

/-- The rank's claim is not stale (R105). -/
abbrev Rank.QueueQuiet (k : Rank) : Prop := k.stage = .queued → k.queuedAge < Config.staleAge

theorem claimConfirm_rank (r q : Fin 3) (s : State) : (claimConfirm r s).rank q =
    if q = r ∧ (s.rank r).stage = .window ∧ Config.windowAge ≤ (s.rank r).windowAge then
      { s.rank r with stage := .sounding, localDue := false } else s.rank q := by
  unfold claimConfirm
  by_cases hdue : (s.rank r).stage = .window ∧ Config.windowAge ≤ (s.rank r).windowAge
  · rw [if_pos hdue, confirm_rank]
    exact if_congr (by simp only [hdue, and_self, and_true]) rfl rfl
  · rw [if_neg hdue, if_neg fun h => hdue h.2]

theorem staleClaim_rank (r q : Fin 3) (s : State) : (staleClaim r s).rank q =
    if q = r ∧ (s.rank r).stage = .queued ∧ Config.staleAge ≤ (s.rank r).queuedAge then
      { s.rank r with stage := .localPending, localDue := false } else s.rank q := by
  unfold staleClaim
  by_cases hdue : (s.rank r).stage = .queued ∧ Config.staleAge ≤ (s.rank r).queuedAge
  · rw [if_pos hdue, makeLocal_rank]
    exact if_congr ⟨fun h => ⟨h.1, hdue⟩, fun h => ⟨h.1, hdue.1⟩⟩ rfl rfl
  · rw [if_neg hdue, if_neg fun h => hdue h.2]

theorem yieldRank_localQuiet {r : Fin 3} {k : Claim} (hclaim : (s.rank r).claim = some k) : ((yieldRank r s).rank r).localDue = false := by
  rw [yieldRank_eq hclaim]
  obtain h | h | ⟨pos, note, b, h⟩ := plan_cases r ((s.rank r).position + 1) false (yielded r k s)
  · rw [h, yielded_rank, if_pos rfl]
  · rw [h, exhaust_rank, if_pos rfl]
  · rw [h]
    exact (makeClaim_spec r pos note b false (yielded r k s)).2.2.1

/-- A local resolution touches no other rank, and where one is due of its rank it leaves the rank without it and in no window (R108). -/
theorem localResolution_rank (r : Fin 3) (s : State) : (∀ q, q ≠ r → (localResolution r s).rank q = s.rank q) ∧
    (((s.rank r).stage = .localPending ∧ (s.rank r).localDue = true) →
      ((localResolution r s).rank r).stage ≠ .window ∧ ((localResolution r s).rank r).localDue = false) ∧
    (¬ ((s.rank r).stage = .localPending ∧ (s.rank r).localDue = true) → localResolution r s = s) := by
  unfold localResolution
  by_cases hdue : (s.rank r).stage = .localPending ∧ (s.rank r).localDue = true
  · rw [if_pos hdue]
    cases hclaim : (s.rank r).claim with
    | none =>
      refine ⟨fun q hq => ?_, fun _ => ?_, fun h => absurd hdue h⟩
      · exact (rank_setRank ..).trans (if_neg hq)
      · dsimp only
        rw [rank_setRank, if_pos rfl]
        exact ⟨by rw [hdue.1]; nofun, rfl⟩
    | some k =>
      dsimp only
      split
      · exact ⟨fun q hq => yieldRank_rank_other hq s, fun _ => ⟨yieldRank_not_window hclaim, yieldRank_localQuiet hclaim⟩,
          fun h => absurd hdue h⟩
      · refine ⟨fun q hq => by rw [confirm_rank, if_neg hq], fun _ => ?_, fun h => absurd hdue h⟩
        rw [confirm_rank, if_pos rfl]
        exact ⟨nofun, rfl⟩
  · rw [if_neg hdue]
    exact ⟨fun _ _ => rfl, fun h => absurd h hdue, fun _ => rfl⟩

theorem confirmAll_quiet (s : State) (q : Fin 3) : ((allRanks.foldl (fun s r => claimConfirm r s) s).rank q).WindowQuiet := by
  refine foldl_establishes (law := fun (q : Fin 3) (s : State) => (s.rank q).WindowQuiet) (fun s r => ?_) (fun s q r hs => ?_) allRanks
    (mem_allRanks q) <;> rw [claimConfirm_rank] <;> split
  · nofun
  · next hdue => exact fun hstage => Nat.lt_of_not_le fun hle => hdue ⟨rfl, hstage, hle⟩
  · nofun
  · exact hs

theorem resolveAll_window (h : ∀ q, (s.rank q).WindowQuiet) (q : Fin 3) :
    ((allRanks.foldl (fun s r => localResolution r s) s).rank q).WindowQuiet := by
  refine foldl_keeps (law := fun s : State => ∀ q, (s.rank q).WindowQuiet) (fun s r hs q => ?_) allRanks h q
  obtain ⟨hother, hdue, hnot⟩ := localResolution_rank r s
  by_cases hq : q = r
  · by_cases h : (s.rank r).stage = .localPending ∧ (s.rank r).localDue = true
    · subst hq
      exact fun hw => absurd hw (hdue h).1
    · rw [hnot h]
      exact hs q
  · rw [hother q hq]
    exact hs q

theorem resolveAll_local (s : State) (q : Fin 3) : ((allRanks.foldl (fun s r => localResolution r s) s).rank q).LocalQuiet := by
  have hself : ∀ (s : State) (r : Fin 3), ((localResolution r s).rank r).LocalQuiet := fun s r => by
    obtain ⟨-, hdue, hnot⟩ := localResolution_rank r s
    by_cases h : (s.rank r).stage = .localPending ∧ (s.rank r).localDue = true
    · exact fun _ => (hdue h).2
    · rw [hnot h]
      exact fun hstage => by simpa [hstage] using h
  refine foldl_establishes (law := fun (q : Fin 3) (s : State) => (s.rank q).LocalQuiet) hself (fun s q r hs => ?_) allRanks
    (mem_allRanks q)
  by_cases hq : q = r
  · exact hq ▸ hself s q
  · rw [(localResolution_rank r s).1 q hq]
    exact hs

theorem staleAll_quiet (hwindow : ∀ q, (s.rank q).WindowQuiet) (hlocal : ∀ q, (s.rank q).LocalQuiet) (q : Fin 3) :
    (allRanks.foldl (fun s r => staleClaim r s) s).RankQuiet q := by
  have hboth := foldl_keeps (law := fun s : State => ∀ q, (s.rank q).WindowQuiet ∧ (s.rank q).LocalQuiet)
    (f := fun s r => staleClaim r s) (fun s r hs q => by
      rw [staleClaim_rank]
      split
      · exact ⟨nofun, fun _ => rfl⟩
      · exact hs q) allRanks fun q => ⟨hwindow q, hlocal q⟩
  refine ⟨(hboth q).1, ?_, (hboth q).2⟩
  refine foldl_establishes (law := fun (q : Fin 3) (s : State) => (s.rank q).QueueQuiet) (fun s r => ?_) (fun s q r hs => ?_) allRanks
    (mem_allRanks q) <;> rw [staleClaim_rank] <;> split
  · nofun
  · next hdue => exact fun hstage => Nat.lt_of_not_le fun hle => hdue ⟨rfl, hstage, hle⟩
  · nofun
  · exact hs

/-- After the claim timers no rank has one due (R105, R107, R108). -/
theorem settleRanks_quiet (s : State) (q : Fin 3) : (settleRanks s).RankQuiet q :=
  staleAll_quiet (resolveAll_window (confirmAll_quiet s)) (resolveAll_local _) q

theorem voiceWork_settleRanks (s : State) : VoiceWork s (settleRanks s) :=
  ((voiceWork_foldl _ (fun s r => voiceWork_claimConfirm r s) _ s).trans
    (voiceWork_foldl _ (fun s r => voiceWork_localResolution r s) _ _)).trans (voiceWork_foldl _ (fun s r => voiceWork_staleClaim r s) _ _)

/-! ### The line -/

/-- No timer of the line has run out. -/
structure Line.Quiet (l : Line) : Prop where
  joining : l.state = .joining → l.joiningTimer < Config.joiningBlocks
  decay : l.state = .listenOnly → l.decayTimer < Config.decayBlocks ∧ l.errorCounter ≠ 0
  roster : l.state = .active → ∀ n ∈ l.rosterTimer, n < Config.rosterBlocks

/-- All but the line and the events stands. -/
structure LineWork (s t : State) : Prop where
  eq : t = { s with line := t.line, panel := { s.panel with events := t.panel.events } }

theorem LineWork.refl (s : State) : LineWork s s := ⟨rfl⟩

theorem LineWork.trans (h : LineWork s t) (k : LineWork t u) : LineWork s u := by
  constructor
  rw [k.eq, h.eq]

/-- In ACTIVE a ROSTER admitted stops the ROSTER timer (R149). -/
theorem Line.enqueue_roster_timer {l : Line} (h : l.state = .active) : (l.enqueue .roster).rosterTimer = none := by
  rw [Line.enqueue_roster h, Line.join]
  split
  · rfl
  · split <;> rfl

theorem enterActive_spec (s : State) : LineWork s (enterActive s) ∧ (enterActive s).line.state = .active :=
  ⟨⟨rfl⟩, (sameLine_admit { s.line with state := .active, rosterTimer := none } .roster).state⟩

theorem joiningComplete_spec (s : State) : LineWork s (joiningComplete s) ∧
    ((joiningComplete s).line.state = .joining → (joiningComplete s).line.joiningTimer < Config.joiningBlocks) := by
  unfold joiningComplete
  split
  · obtain ⟨hwork, hstate⟩ := enterActive_spec s
    exact ⟨hwork, fun h => by cases hstate.symm.trans h⟩
  · next hdue => exact ⟨.refl s, fun hstate => Nat.lt_of_not_le fun hle => hdue ⟨hstate, hle⟩⟩

theorem decayExpiry_spec (s : State) : LineWork s (decayExpiry s) ∧ (decayExpiry s).line.state = s.line.state ∧
    (decayExpiry s).line.joiningTimer = s.line.joiningTimer ∧
    (s.line.state = .listenOnly → (decayExpiry s).line.decayTimer < Config.decayBlocks) := by
  unfold decayExpiry
  split
  · exact ⟨⟨rfl⟩, rfl, rfl, fun _ => Nat.zero_lt_succ _⟩
  · next hdue => exact ⟨.refl s, rfl, rfl, fun hstate => Nat.lt_of_not_le fun hle => hdue ⟨hstate, hle⟩⟩

theorem listenOnlyEnd_spec (s : State) : LineWork s (listenOnlyEnd s) ∧
    ((listenOnlyEnd s).line.state = .active ∨ listenOnlyEnd s = s ∧ (s.line.state = .listenOnly → s.line.errorCounter ≠ 0)) := by
  unfold listenOnlyEnd
  split
  · obtain ⟨hwork, hstate⟩ := enterActive_spec s
    exact ⟨hwork, .inl hstate⟩
  · next hdue => exact ⟨.refl s, .inr ⟨rfl, fun hstate hzero => hdue ⟨hstate, hzero⟩⟩⟩

theorem rosterExpiry_spec (s : State) : LineWork s (rosterExpiry s) ∧ SameLine s.line (rosterExpiry s).line ∧
    (s.line.state = .active → ∀ n ∈ (rosterExpiry s).line.rosterTimer, n < Config.rosterBlocks) := by
  unfold rosterExpiry
  split
  · refine ⟨⟨rfl⟩, sameLine_admit s.line .roster, fun hstate n hn => ?_⟩
    rw [admit_line, Line.enqueue_roster_timer hstate] at hn
    cases hn
  · next hdue =>
    refine ⟨.refl s, by constructor <;> rfl, fun hstate n hn => Nat.lt_of_not_le fun hle => hdue ?_⟩
    simp [Line.rosterDue, Option.mem_def.1 hn, hstate, hle]

/-- After the timers of the line none is due (R137, R139, R149). -/
theorem lineTimers_spec (s : State) : LineWork s (rosterExpiry (listenOnlyEnd (decayExpiry (joiningComplete s)))) ∧
    (rosterExpiry (listenOnlyEnd (decayExpiry (joiningComplete s)))).line.Quiet := by
  obtain ⟨hjwork, hjoin⟩ := joiningComplete_spec s
  obtain ⟨hdwork, hdstate, hdjoin, hdecay⟩ := decayExpiry_spec (joiningComplete s)
  obtain ⟨hlwork, hlisten⟩ := listenOnlyEnd_spec (decayExpiry (joiningComplete s))
  obtain ⟨hrwork, hsame, hroster⟩ := rosterExpiry_spec (listenOnlyEnd (decayExpiry (joiningComplete s)))
  refine ⟨((hjwork.trans hdwork).trans hlwork).trans hrwork, ?_, ?_, fun h => hroster (hsame.state ▸ h)⟩ <;> rw [hsame.state]
  · obtain hactive | ⟨hstays, -⟩ := hlisten
    · rw [hactive]
      nofun
    · rw [hsame.joiningTimer, hstays, hdstate, hdjoin]
      exact hjoin
  · obtain hactive | ⟨hstays, hcount⟩ := hlisten
    · rw [hactive]
      nofun
    · rw [hsame.decayTimer, hsame.errorCounter, hstays]
      exact fun h => ⟨hdecay (hdstate ▸ h), hcount h⟩

/-! ### The boundary -/

/-- Nothing is due but what the panel brings. -/
structure State.Calm (s : State) : Prop where
  frame : s.FrameQuiet
  clocks : s.ClocksQuiet
  settings : s.SettingsQuiet
  ranks : ∀ r, s.RankQuiet r
  line : s.line.Quiet

theorem State.Calm.boundaryQuiet (h : s.Calm) : s.BoundaryQuiet := by
  obtain ⟨-, ⟨hsettle, hloss, hexpiry⟩, ⟨htranspose, htuning, hkey, hset⟩, hranks, hjoining, hdecay, hroster⟩ := h
  exact ⟨hsettle, hloss, hexpiry, ⟨htranspose, htuning, hkey, hset⟩, hranks, hjoining, hdecay, hroster⟩

/-- The steps of a boundary leave nothing due but what the panel brings. -/
theorem settleBoundary_calm (hs : s.FrameQuiet) : (settleBoundary s).Calm := by
  have hframe := frameQuiet_settled hs
  have hclocks := clocksQuiet_settled s
  obtain ⟨htake, hsettings⟩ := takeDue_spec (allEight.foldl (fun s st => stationExpiry st s) (sensorLost (rootSettled s)))
  have hwork := voiceWork_settleRanks (takeDue (allEight.foldl (fun s st => stationExpiry st s) (sensorLost (rootSettled s))))
  have hranks := settleRanks_quiet (takeDue (allEight.foldl (fun s st => stationExpiry st s) (sensorLost (rootSettled s))))
  have hsame := htake.trans hwork.sameClocks
  show (rosterExpiry (listenOnlyEnd (decayExpiry (joiningComplete
    (settleRanks (takeDue (allEight.foldl (fun s st => stationExpiry st s) (sensorLost (rootSettled s))))))))).Calm
  generalize settleRanks (takeDue (allEight.foldl (fun s st => stationExpiry st s) (sensorLost (rootSettled s)))) = x at *
  obtain ⟨hline, hquiet⟩ := lineTimers_spec x
  have hx : SameClocks x (rosterExpiry (listenOnlyEnd (decayExpiry (joiningComplete x)))) := by
    rw [hline.eq]
    exact ⟨⟨rfl, rfl, rfl⟩, rfl, rfl, rfl⟩
  have hall := hsame.trans hx
  refine ⟨hall.frameQuiet hframe, hall.clocksQuiet hclocks, ?_, ?_, hquiet⟩
  · have hpanel := hwork.panel
    obtain ⟨htranspose, htuning, hkey, hset⟩ := hsettings
    rw [hline.eq]
    exact ⟨by rwa [← hpanel] at htranspose, by rwa [← hpanel] at htuning, by rwa [← hpanel] at hkey, by rwa [← hpanel] at hset⟩
  · rw [hline.eq]
    exact hranks

end

end Sys2Proof.Machine

/-!
The messages and the section report are worked off, and what has come due is completed first (assumption 1). O2.
-/

namespace Sys2Proof.Machine

section
variable {s : State}

/-! ### The messages -/

theorem State.Calm.withPanel (h : s.Calm) {p : Panel} (hp : { s with panel := p }.SettingsQuiet) : { s with panel := p }.Calm := by
  obtain ⟨hframe, ⟨hsettle, hloss, hexpiry⟩, -, hranks, hline⟩ := h
  exact ⟨hframe, ⟨hsettle, hloss, hexpiry⟩, hp, hranks, hline⟩

/-- A record placed, an event or a count changed: no waiting setting is touched. -/
theorem State.Calm.withReports (h : s.Calm) {p : Panel} (htranspose : p.transposeDue = s.panel.transposeDue)
    (htuning : p.tuningDue = s.panel.tuningDue) (hkey : p.keyDue = s.panel.keyDue) (hranks : p.ranksDue = s.panel.ranksDue) :
    { s with panel := p }.Calm :=
  h.withPanel ⟨htranspose.trans h.settings.transpose, htuning.trans h.settings.tuning, hkey.trans h.settings.key,
    hranks.trans h.settings.ranks⟩

theorem requestProgram_panel (n : Nat) (s : State) : ∃ e, (requestProgram n s).panel = { s.panel with events := e } := by
  obtain ⟨-, -, -, hcurrent, hother, hkeeps, hreads⟩ := requestProgram_spec n s
  by_cases hc : ∃ h, s.bank s.banks.selector = .ready h ∧ h.number = n
  · exact ⟨_, (hcurrent hc).1⟩
  · by_cases ho : ∃ h, s.bank s.banks.selector.other = .ready h ∧ h.number = n
    · exact ⟨_, (hother hc ho).1⟩
    · by_cases hk : ∃ k h, s.bank s.banks.selector.other = .pending k (some h) ∧ h.number = n
      · exact ⟨_, (hkeeps hc hk).1⟩
      · exact ⟨_, (hreads hc ho hk).1⟩

theorem requestProgram_calm (n : Nat) (h : s.Calm) : (requestProgram n s).Calm := by
  obtain ⟨himage, hframe, -⟩ := requestProgram_spec n s
  obtain ⟨e, hpanel⟩ := requestProgram_panel n s
  obtain ⟨hquiet, ⟨hsettle, hloss, hexpiry⟩, ⟨htranspose, htuning, hkey, hset⟩, hranks, hline⟩ := h
  rw [hpanel] at hframe
  rw [hframe]
  exact ⟨SameFrame.frameQuiet (s := s) ⟨himage, rfl, rfl⟩ hquiet, ⟨hsettle, hloss, hexpiry⟩, ⟨htranspose, htuning, hkey, hset⟩, hranks,
    hline⟩

/-- An admission leaves the ROSTER timer or stops it (R149). -/
theorem Line.enqueue_rosterTimer (l : Line) (r : Record) : (l.enqueue r).rosterTimer = l.rosterTimer ∨ (l.enqueue r).rosterTimer = none := by
  have hjoin : (l.join r).rosterTimer = l.rosterTimer := by
    unfold Line.join
    split <;> rfl
  have hreplace : ∀ p, (l.replaceOrJoin p r).rosterTimer = l.rosterTimer := fun p => by
    unfold Line.replaceOrJoin
    split
    · rfl
    · exact hjoin
  by_cases hstate : l.state = .active
  · cases r with
    | roster => exact .inr (Line.enqueue_roster_timer hstate)
    | held =>
      rw [Line.enqueue, if_pos hstate]
      split <;> exact .inl rfl
    | _ =>
      rw [Line.enqueue, if_pos hstate]
      exact .inl (hreplace _)
  · rw [admit_of_not_active hstate]
    exact .inl rfl

theorem Touch.keeps_lineQuiet {s t : State} (h : Touch s t) (hs : s.line.Quiet) : t.line.Quiet := by
  cases h with
  | enqueued r =>
    have hsame := sameLine_admit s.line r
    obtain ⟨hjoining, hdecay, hroster⟩ := hs
    refine ⟨by rwa [admit_line, hsame.state, hsame.joiningTimer],
      by rwa [admit_line, hsame.state, hsame.decayTimer, hsame.errorCounter], ?_⟩
    rw [admit_line, hsame.state]
    intro hstate n hn
    obtain htimer | htimer := Line.enqueue_rosterTimer s.line r
    · exact hroster hstate n (htimer ▸ hn)
    · rw [htimer] at hn
      cases hn
  | remove => exact ⟨hs.joining, hs.decay, hs.roster⟩
  | take => exact (loadPending_line _).symm ▸ hs
  | _ => exact hs

theorem releaseAll_rank (s : State) (r : Fin 3) : ((releaseAll s).rank r).stage = .idle := by
  refine foldl_establishes (law := fun (r : Fin 3) (s : State) => (s.rank r).stage = .idle) (fun s r => ?_) (fun s r q hs => ?_) _
    (mem_allRanks r) <;> rw [idleRank_rank]
  · rw [if_pos rfl]
  · split
    · rfl
    · exact hs

theorem releaseAll_calm (h : s.Calm) : (releaseAll s).Calm := by
  have hwork := voiceWork_releaseAll s
  obtain ⟨hframe, hclocks, ⟨htranspose, htuning, hkey, hset⟩, -, hline⟩ := h
  refine ⟨hwork.sameFrame.frameQuiet hframe, hwork.sameClocks.clocksQuiet hclocks, ?_, fun r => ?_,
    (touches_releaseAll s).keeps (law := fun s => s.line.Quiet) (fun _ _ => Touch.keeps_lineQuiet) hline⟩
  · rw [← hwork.panel] at htranspose htuning hkey hset
    exact ⟨htranspose, htuning, hkey, hset⟩
  · have hidle := releaseAll_rank s r
    refine ⟨?_, ?_, ?_⟩ <;> rw [hidle] <;> nofun

theorem reloadPart_calm (h : s.Calm) : (reloadPart s).Calm := by
  obtain ⟨-, ⟨-, hloss, hexpiry⟩, -, -, hjoining, hdecay, -⟩ := h
  refine ⟨⟨fun _ => Nat.zero_lt_succ _, fun _ => rfl, nofun⟩, ⟨Nat.zero_lt_succ _, hloss, hexpiry⟩, ⟨rfl, rfl, rfl, rfl⟩, fun r => ?_,
    hjoining, hdecay, fun _ => nofun⟩
  have hidle : ((reloadPart s).rank r).stage = .idle := by fin_cases r <;> rfl
  refine ⟨?_, ?_, ?_⟩ <;> rw [hidle] <;> nofun

/-- The effect of a message brings nothing due and takes nothing more from the in FIFO. -/
theorem onMessage_spec (m : Message) (h : s.Calm) : ∃ g, onMessage m = some g ∧ (g s).Calm ∧ (g s).panel.inFifo = s.panel.inFifo := by
  have hrefuse : ∀ code kind, (refuseMessage code kind s).Calm := fun _ _ => h.withReports rfl rfl rfl rfl
  obtain ⟨htranspose, htuning, hkey, hset⟩ := h.settings
  cases m with
  | idle => exact ⟨_, rfl, h, rfl⟩
  | program n =>
    refine ⟨_, rfl, ?_⟩
    unfold takeProgram
    split
    · exact ⟨hrefuse _ _, rfl⟩
    · obtain ⟨e, hpanel⟩ := requestProgram_panel n s
      exact ⟨requestProgram_calm n h, by rw [hpanel]⟩
  | transpose v => exact ⟨_, rfl, h.withPanel ⟨rfl, htuning, hkey, hset⟩, rfl⟩
  | tuning v => exact ⟨_, rfl, h.withPanel ⟨htranspose, rfl, hkey, hset⟩, rfl⟩
  | key k scale =>
    refine ⟨_, rfl, ?_⟩
    unfold fixKey
    split
    · exact ⟨hrefuse _ _, rfl⟩
    · exact ⟨h.withPanel ⟨htranspose, htuning, rfl, hset⟩, rfl⟩
  | ranks set => exact ⟨_, rfl, h.withPanel ⟨htranspose, htuning, hkey, rfl⟩, rfl⟩
  | allOff => exact ⟨_, rfl, releaseAll_calm h, congrArg Panel.inFifo (voiceWork_releaseAll s).panel⟩
  | status => exact ⟨_, rfl, h.withReports rfl rfl rfl rfl, rfl⟩
  | sectionReport => exact ⟨_, rfl, h.withReports rfl rfl rfl rfl, rfl⟩
  | ack listed => exact ⟨_, rfl, h.withReports rfl rfl rfl rfl, rfl⟩
  | reload => exact ⟨_, rfl, reloadPart_calm h, rfl⟩
  | unknown kind => exact ⟨_, rfl, hrefuse _ _, rfl⟩

theorem headMessage_of_empty (h : s.panel.inFifo = []) : s.headMessage = none := by
  rw [State.headMessage, h]

/-- With fuel for every message none is left that can be processed (R183). -/
theorem processMessages_spec (fuel : Nat) (h : s.Calm) (hfuel : s.panel.inFifo.length ≤ fuel) :
    (processMessages fuel s).Calm ∧ (processMessages fuel s).headMessage = none := by
  induction fuel generalizing s with
  | zero => exact ⟨h, headMessage_of_empty (List.eq_nil_of_length_eq_zero (Nat.le_zero.1 hfuel))⟩
  | succ fuel ih =>
    unfold processMessages
    cases hm : s.headMessage with
    | none => exact ⟨h, hm⟩
    | some m =>
      obtain ⟨g, hg, hcalm, hfifo⟩ := onMessage_spec m (s := dropHead s) (h.withReports rfl rfl rfl rfl)
      have hhead : processHead onMessage s = g (dropHead s) := by simp only [processHead, hm, hg]
      have htail : (dropHead s).panel.inFifo.length = s.panel.inFifo.length - 1 := List.length_tail
      dsimp only
      rw [hhead]
      exact ih hcalm (by rw [hfifo, htail]; omega)

/-! ### The section report -/

theorem placeSection_of_quiet (h : s.PanelQuiet) : placeSection s = s := by
  obtain ⟨-, hreport⟩ := h
  unfold placeSection
  split
  · rfl
  · next rep hrep =>
    refine if_neg fun hplace => ?_
    obtain hnone | hfull | hwaits := hreport
    · cases hrep.symm.trans hnone
    · exact absurd hplace.1 (Nat.not_lt.2 hfull)
    · cases hplace.2.symm.trans hwaits

/-- Where a report may place a record one is placed, and no message is left at the head of the in FIFO (R184). -/
theorem placeSection_of_not_quiet (hmessage : s.headMessage = none) (hquiet : ¬ s.PanelQuiet) : ∃ rep x,
    placeSection s = place x { s with panel := { s.panel with report := rep } } ∧ s.panel.inFifo = [] := by
  simp only [State.PanelQuiet, hmessage, true_and, not_or, Nat.not_le] at hquiet
  obtain ⟨hreport, hroom, hwaits⟩ := hquiet
  obtain ⟨rep, hrep⟩ := Option.ne_none_iff_exists'.1 hreport
  have hwaits : s.headWaits = false := by simpa using hwaits
  have hempty : s.panel.inFifo = [] := by
    unfold State.headMessage at hmessage
    unfold State.headWaits at hwaits
    cases hin : s.panel.inFifo with
    | nil => rfl
    | cons m rest =>
      rw [hin] at hmessage hwaits
      have hfits : (readMessage m).room + s.panel.outFifo.length ≤ Config.fifoLimit := Nat.le_of_not_lt (of_decide_eq_false hwaits)
      cases (if_pos hfits).symm.trans hmessage
  unfold placeSection
  rw [hrep]
  dsimp only
  rw [if_pos ⟨hroom, hwaits⟩]
  split
  · exact ⟨_, _, rfl, hempty⟩
  · exact ⟨_, _, rfl, hempty⟩

/-- With fuel for every free place of the out FIFO a running report places all it may (R184). -/
theorem placeSections_spec (fuel : Nat) (h : s.Calm) (hmessage : s.headMessage = none)
    (hfuel : s.PanelQuiet ∨ Config.fifoLimit ≤ fuel + s.panel.outFifo.length) :
    (placeSections fuel s).Calm ∧ (placeSections fuel s).PanelQuiet := by
  induction fuel generalizing s with
  | zero => exact ⟨h, hfuel.elim id fun hfull => ⟨hmessage, .inr (.inl (by rwa [Nat.zero_add] at hfull))⟩⟩
  | succ fuel ih =>
    unfold placeSections
    by_cases hquiet : s.PanelQuiet
    · rw [placeSection_of_quiet hquiet]
      exact ih h hmessage (.inl hquiet)
    · obtain ⟨rep, x, hplace, hempty⟩ := placeSection_of_not_quiet hmessage hquiet
      have hfree := hfuel.resolve_left hquiet
      rw [hplace]
      refine ih (h.withReports rfl rfl rfl rfl) (headMessage_of_empty hempty) (.inr ?_)
      show _ ≤ fuel + (s.panel.outFifo ++ [x]).length
      rw [List.length_append, List.length_singleton]
      omega

/-! ### What is due -/

/-- In a running part nothing is left due once what is due is completed (assumption 1). -/
theorem settle_quiet (hr : s.Running) : (settle s).Quiet := by
  have hcalm : (settleBoundary (settleFrame s)).Calm := settleBoundary_calm (settleFrame_frameQuiet s)
  have hsettle : settle s = settlePanel (settleBoundary (settleFrame s)) := if_neg (by rw [hr]; nofun)
  rw [hsettle]
  generalize settleBoundary (settleFrame s) = x at hcalm
  obtain ⟨hprocessed, hmessage⟩ := processMessages_spec x.panel.inFifo.length hcalm (Nat.le_refl _)
  obtain ⟨hplaced, hpanel⟩ := placeSections_spec Config.fifoLimit hprocessed hmessage (.inr (Nat.le_add_right _ _))
  exact ⟨hplaced.frame, hplaced.boundaryQuiet, hpanel⟩

theorem settle_running (hr : s.Running) : (settle s).Running := by
  obtain ⟨-, hpower⟩ := (moves_settle s).sameCore
  rw [State.Running, hpower]
  exact hr

/-- In power-on reset nothing is completed (R175). -/
theorem settle_of_held (h : s.power.resetHeld = true) : settle s = s := if_pos h

theorem exec_settled {c : Instr} (hc : c.fromOutside = true) (s : State) : exec c s = exec c (settle s) := by
  cases hr : s.power.resetHeld with
  | true => rw [settle_of_held hr]
  | false =>
    have hreset : c.ofReset = false := by cases c <;> first | rfl | cases hc
    have hfound : c.found s = settle s := if_pos hc
    rw [exec_running hreset hr, hfound, exec_quiet hreset (settle_running hr) (settle_quiet hr)]

/-- Settles O2: the frame's steps, the boundary's and the panel's each leave nothing due that an earlier one has completed. -/
theorem dueStepsComeFirst : Obligations.DueStepsComeFirst := by
  have hidle : ∀ s : State, s.pending = [] → step s = .next (settle s) := fun s h => by simp only [step, h]
  refine ⟨fun s hr => ⟨settle_running hr, settle_quiet hr⟩, hidle, fun s h hq => ?_, fun s c hc => exec_settled hc s⟩
  rw [hidle s h, settle_of_quiet hq]

end

end Sys2Proof.Machine
